-- ==== Sys2Proof/Word.lean ====
section
/-! DEFINITION. Sys2Proof/Word.lean: the two widths of the interface, the data byte and the 16-bit word
(00_scope.md R10). -/

namespace Sys2Proof

/-- A data byte, an unsigned value 0..255 (R10, R11). -/
abbrev Byte := BitVec 8

/-- A 16-bit value: an operation word, the checksum accumulator, a length or count register, the register
read port (R10). -/
abbrev Word := BitVec 16

end Sys2Proof
end

