-- ==== Sys2Proof/Config.lean ====
section
/-! DEFINITION. Sys2Proof/Config.lean: the instantiation parameters of CORE (00_scope.md R8, R9) and the free
values the spec leaves open (10_state.md R33, R38). No constant declared `opaque` here has a value that a proof
or an evaluation can see. -/

namespace Sys2Proof

/-- The parameters fixed when the block is instantiated (R8, R9). The two capacities are held as their distance
from the lower bound of R8, so that every value of this type lies inside R8's ranges and no other configuration
exists (R158, I18; DESIGN CHOICE, log 5). -/
structure Params where
  /-- MAX_PAYLOAD − 8, so that 8 ≤ MAX_PAYLOAD ≤ 65532. -/
  payloadRoom : Fin 65525
  /-- MAX_RX − 11, so that 11 ≤ MAX_RX ≤ 65535. -/
  rxRoom : Fin 65525
  /-- CMD_ID_VOLTAGE_READ. -/
  voltageRead : Byte
  /-- CMD_ID_LIGHTLEVEL_READ. -/
  lightlevelRead : Byte
  /-- CMD_ID_ALARM_READ. -/
  alarmRead : Byte
  /-- CMD_ID_COLOR_READ. -/
  colorRead : Byte
deriving DecidableEq, Repr

/-- MAX_PAYLOAD, the capacity of the transmit payload buffer (R8). -/
def Params.maxPayload (p : Params) : Nat := 8 + p.payloadRoom.val

/-- MAX_RX, the capacity of the receive frame buffer (R8). -/
def Params.maxRx (p : Params) : Nat := 11 + p.rxRoom.val

/-- The OPEN parameters of R8 and R9, and the free values of log 6. -/
opaque Config.payloadRoom : Fin 65525
opaque Config.rxRoom : Fin 65525
opaque Config.voltageRead : Byte
opaque Config.lightlevelRead : Byte
opaque Config.alarmRead : Byte
opaque Config.colorRead : Byte

/-- The parameters of the machine at `State.reset`: open, so a claim about it holds for every choice inside R8
(DESIGN CHOICE, log 4). -/
def Config.params : Params where
  payloadRoom := Config.payloadRoom
  rxRoom := Config.rxRoom
  voltageRead := Config.voltageRead
  lightlevelRead := Config.lightlevelRead
  alarmRead := Config.alarmRead
  colorRead := Config.colorRead

/-- FREE VALUE: what TXBUF holds at an index that no TX_DATA has written since reset (R33: "Reset value
unspecified (any bytes)"; log 6). -/
opaque Config.txbufReset : Nat → Byte

/-- FREE VALUE: what RXBUF holds at an index that no RX_BYTE has written since reset (R38; log 6). -/
opaque Config.rxbufReset : Nat → Byte

end Sys2Proof
end

