-- ==== Sys2Proof/Syntax.lean ====
section
/-! DEFINITION. Sys2Proof/Syntax.lean: the operation word's format OPW as fields (30_encoding.md R61) and the ten
operations of the opcode table (R65). -/

namespace Sys2Proof

/-- The fields of an operation word, format OPW (R61): any word is such a record, legal or not. -/
structure OpWord where
  /-- OPC, bits 15:12. -/
  opc : BitVec 4
  /-- RSV, bits 11:9. -/
  rsv : BitVec 3
  /-- L, bit 8. -/
  last : Bool
  /-- D, bits 7:0. -/
  data : Byte
deriving DecidableEq, Repr

/-- The operations of R65, one constructor for each row of the opcode table, with the operands of R64. Every
value of this type is an operation that a legal word stands for: the operand types admit exactly what R64 and R66
admit (CFG_WR takes D[0] only). -/
inductive Instr where
  /-- NOP (R140). -/
  | nop
  /-- CSUM_CLR (R77). -/
  | csumClr
  /-- CSUM_ADD d (R78). -/
  | csumAdd (d : Byte)
  /-- TX_BEGIN c (R82). -/
  | txBegin (c : Byte)
  /-- TX_DATA p (R83). -/
  | txData (p : Byte)
  /-- TX_END (R84). -/
  | txEnd
  /-- ESC_BYTE d[, last] (R95). -/
  | escByte (d : Byte) (last : Bool)
  /-- RX_BYTE d[, last] (R105). -/
  | rxByte (d : Byte) (last : Bool)
  /-- RX_ABORT (R107). -/
  | rxAbort
  /-- CFG_WR b (R141). -/
  | cfgWr (b : Bool)
deriving DecidableEq, Repr

end Sys2Proof
end

