-- ==== Sys2Proof/WellFormed.lean ====
section
/-! DEFINITION. Sys2Proof/WellFormed.lean: the checks on syntax and configuration. An `Instr` needs none (its
operand types admit only what R64 and R66 admit); what can be ill-formed is an operation word (R66) and a
configuration (R9). -/

namespace Sys2Proof

/-- The bits that must be zero besides RSV, per operation code, and the reserved codes (R66, R67). -/
def OpWord.operandsWellFormed (o : OpWord) : Bool :=
  match o.opc.toNat with
  | 0 | 1 | 5 | 8 => !o.last && o.data == 0#8
  | 2 | 3 | 4 => !o.last
  | 6 | 7 => true
  | 9 => !o.last && o.data >>> 1 == 0#8
  | _ => false

/-- An operation word is well formed when RSV is 000 and no other bit is set that R66 requires to be zero; every
other word is illegal (R63). -/
def OpWord.wellFormed (o : OpWord) : Bool :=
  o.rsv == 0#3 && o.operandsWellFormed

/-- A configuration is well formed when the four command IDs are pairwise distinct (R9). The model also runs one
that is not, by the first match of R131 (I10, log 5). -/
def Params.wellFormed (p : Params) : Bool :=
  p.voltageRead != p.lightlevelRead && p.voltageRead != p.alarmRead && p.voltageRead != p.colorRead &&
    p.lightlevelRead != p.alarmRead && p.lightlevelRead != p.colorRead && p.alarmRead != p.colorRead

end Sys2Proof
end

