-- ==== Sys2Proof/Decode.lean ====
section
/-! DEFINITION. Sys2Proof/Decode.lean: the decoder of 30_encoding.md R62 over the opcode map of R65, total on all
65536 words, rejecting by name; after it the encoder of R69. -/

namespace Sys2Proof

/-- Operand D = w[7:0] (R64). -/
def dataOf (w : Word) : Byte := w.extractLsb' 0 8

/-- Operand L = w[8] (R64). -/
def lastOf (w : Word) : Bool := w.getLsbD 8

/-- The only data bit CFG_WR uses, D[0] (R64). -/
def cfgBitOf (w : Word) : Bool := w.getLsbD 0

/-- The fields of a word (R61). -/
def fieldsOf (w : Word) : OpWord where
  opc := w.extractLsb' 12 4
  rsv := w.extractLsb' 9 3
  last := lastOf w
  data := dataOf w

/-- One row of the opcode map (R65). -/
structure OpcodeRow where
  mnemonic : String
  pattern : Word
  mask : Word
  /-- The operation of a word that this row matches, with its operands assembled (R64). -/
  build : Word → Instr

/-- The opcode map (R65); OPC 0xA to 0xF has no row (R67). -/
def opcodeRows : List OpcodeRow :=
  [ ⟨"NOP",      0x0000#16, 0xFFFF#16, fun _ => .nop⟩,
    ⟨"CSUM_CLR", 0x1000#16, 0xFFFF#16, fun _ => .csumClr⟩,
    ⟨"CSUM_ADD", 0x2000#16, 0xFF00#16, fun w => .csumAdd (dataOf w)⟩,
    ⟨"TX_BEGIN", 0x3000#16, 0xFF00#16, fun w => .txBegin (dataOf w)⟩,
    ⟨"TX_DATA",  0x4000#16, 0xFF00#16, fun w => .txData (dataOf w)⟩,
    ⟨"TX_END",   0x5000#16, 0xFFFF#16, fun _ => .txEnd⟩,
    ⟨"ESC_BYTE", 0x6000#16, 0xFE00#16, fun w => .escByte (dataOf w) (lastOf w)⟩,
    ⟨"RX_BYTE",  0x7000#16, 0xFE00#16, fun w => .rxByte (dataOf w) (lastOf w)⟩,
    ⟨"RX_ABORT", 0x8000#16, 0xFFFF#16, fun _ => .rxAbort⟩,
    ⟨"CFG_WR",   0x9000#16, 0xFFFE#16, fun w => .cfgWr (cfgBitOf w)⟩ ]

/-- A row matches a word when (w AND mask) = match (R62). -/
def OpcodeRow.hits (r : OpcodeRow) (w : Word) : Bool := w &&& r.mask == r.pattern

/-- Why a word is illegal (R63). The names serve a reader; CORE does the same for all of them. -/
inductive DecodeReject where
  /-- OPC in 0xA..0xF. -/
  | reservedOpcode
  /-- RSV is not 000. -/
  | reservedBits
  /-- L is 1 in an operation that takes no L. -/
  | lastBit
  /-- A bit of D that the operation requires to be zero is 1. -/
  | dataBits
deriving DecidableEq, Repr

/-- The name for a word that no row matches (R63, R66). -/
def rejectReason (o : OpWord) : DecodeReject :=
  if 10 ≤ o.opc.toNat then .reservedOpcode
  else if o.rsv ≠ 0#3 then .reservedBits
  else if o.last then .lastBit
  else .dataBits

/-- The decoder: the operation of the row that matches, or the name of the rejection (R62). -/
def decodeWord (w : Word) : Except DecodeReject Instr :=
  match opcodeRows.find? (·.hits w) with
  | some r => .ok (r.build w)
  | none => .error (rejectReason (fieldsOf w))

/-- Bit L of an encoded word, L << 8 (R69). -/
def lastBitOf (last : Bool) : Word := if last then 0x0100#16 else 0x0000#16

/-- The encoder: match OR (L << 8) OR d (R69). -/
def encode : Instr → Word
  | .nop => 0x0000#16
  | .csumClr => 0x1000#16
  | .csumAdd d => 0x2000#16 ||| d.setWidth 16
  | .txBegin c => 0x3000#16 ||| c.setWidth 16
  | .txData p => 0x4000#16 ||| p.setWidth 16
  | .txEnd => 0x5000#16
  | .escByte d last => 0x6000#16 ||| lastBitOf last ||| d.setWidth 16
  | .rxByte d last => 0x7000#16 ||| lastBitOf last ||| d.setWidth 16
  | .rxAbort => 0x8000#16
  | .cfgWr b => 0x9000#16 ||| (if b then 0x0001#16 else 0x0000#16)

/-- What the decoder reads from an instruction whose bits are `w` in the numbering of the opcode table: `nbits`
bits from the table, the bits above them 0, one 16-bit word (R68). -/
def tableWord (nbits w : Nat) : Word := BitVec.ofNat 16 (w % 2 ^ nbits)

/-- The instruction in `tableWord nbits w`, or none for a word the decoder rejects. -/
def decodeTableWord (nbits w : Nat) : Option Instr :=
  match decodeWord (tableWord nbits w) with
  | .ok i => some i
  | .error _ => none

end Sys2Proof
end

