-- ==== Sys2Proof/Machine/State.lean ====
section
/-! DEFINITION. Sys2Proof/Machine/State.lean: the architectural state of CORE (10_state.md R28–R42), the reasons a
step can stop, and the reset state (70_reset_and_hazards.md R160). Plain data throughout. -/

namespace Sys2Proof.Machine

/-- A byte buffer: (index, byte) pairs, indices strictly rising. An index it does not list has no byte of its own;
what a read gives there is a free value (R33, R38; log 6). -/
abbrev Memory := List Host.Cell

/-- The canonical form of a buffer: indices strictly rising. -/
def Memory.wf : Memory → Bool
  | [] => true
  | [_] => true
  | (a, _) :: (b, y) :: m => decide (a < b) && Memory.wf ((b, y) :: m)

/-- REASON: the first failed check or the decode outcome (R39, R128). Codes 9–15 are never written (I13) and have
no name. -/
inductive Reason where
  | ok | short | badStx | badEtx | badClass | badStatus | rxOverflow | escError | payloadShort
deriving DecidableEq, Repr

/-- KIND: the tag of the last DecodedResult (R39, R130). Codes 6 and 7 are never written (I13) and have no name. -/
inductive Kind where
  | none | lightlevel | voltage | alarm | colorRaw | raw
deriving DecidableEq, Repr

/-- One pair of the transmit output stream (R26). -/
structure TxPair where
  byte : Byte
  last : Bool
deriving DecidableEq, Repr

/-- The four sticky error flags of ERR (R29). -/
structure ErrFlags where
  illegal : Bool
  txSeq : Bool
  txOvf : Bool
  escBusy : Bool
deriving DecidableEq, Repr

/-- The transmit path (R31–R33): TX_ACTIVE, TX_BAD, TX_CMD, TX_PLEN, TXBUF. -/
structure TxPath where
  active : Bool
  bad : Bool
  cmd : Byte
  plen : Word
  buf : Memory
deriving DecidableEq, Repr

/-- The receive path (R35–R38): RX_BODY, RX_MODE, DSC_ESC, DSC_ERR, RX_OVF, RX_LEN, RXBUF. -/
structure RxPath where
  body : Bool
  mode : Bool
  dscEsc : Bool
  dscErr : Bool
  ovf : Bool
  len : Word
  buf : Memory
deriving DecidableEq, Repr

/-- The result registers, written by Complete() only (R39–R41). -/
structure Result where
  done : Bool
  valid : Bool
  reason : Reason
  kind : Kind
  cmd : Byte
  lenf : Word
  level : Byte
  hour : Byte
  minute : Byte
  scene : Byte
  enabled : Bool
  rawOff : Word
  rawLen : Word
deriving DecidableEq, Repr

/-- What the host can do to CORE that changes its state (R47): issue an operation word (R22), assert `rst` (R23,
R159), take the head pair of TXQ (R26). Reading a port changes nothing (R24, R25) and is a function of the state. -/
inductive HostEvent where
  | op (w : Word)
  | rst
  | takePair
deriving DecidableEq, Repr

/-- The state. `params`, `inbox` and `emitted` are the model's own (logs 1, 4, 8); every other field is a state
element of 10_state.md. -/
structure State where
  /-- The instantiation parameters (R8, R9), constant. -/
  params : Params
  /-- What the host will do next, in order (R19, R46). -/
  inbox : List HostEvent
  /-- CFG.UNSTUFF_EN (R28). -/
  unstuffEn : Bool
  /-- ERR (R29). -/
  err : ErrFlags
  /-- CSUM (R30). -/
  csum : Word
  /-- The transmit path (R31–R33). -/
  tx : TxPath
  /-- ESC_BODY (R34). -/
  escBody : Bool
  /-- The receive path (R35–R38). -/
  rx : RxPath
  /-- The result registers (R39–R41). -/
  res : Result
  /-- TXQ, head first (R26, R42). -/
  txq : List TxPair
  /-- Every pair ever emitted, oldest first (R171 (a)). -/
  emitted : List TxPair
deriving DecidableEq, Repr

/-- CORE has no fault outcome: "there is no fault outcome of a step" (R158; log 11). -/
inductive Fault where
deriving DecidableEq, Repr

/-- Why a step gives no meaning. -/
inductive Refusal where
  /-- Raised by an arm of `exec` whose instruction has no meaning yet; none is left. Safe: the model stops where
  the hardware goes on. -/
  | notModelled (mnemonic : String)
deriving DecidableEq, Repr

/-- ERR at reset (R29, R160). -/
def ErrFlags.reset : ErrFlags := ⟨false, false, false, false⟩

/-- The transmit path at reset (R31–R33, R160); no byte of TXBUF is listed. -/
def TxPath.reset : TxPath := { active := false, bad := false, cmd := 0x00#8, plen := 0x0000#16, buf := [] }

/-- The receive path at reset (R35–R38, R160); no byte of RXBUF is listed. -/
def RxPath.reset : RxPath :=
  { body := false, mode := false, dscEsc := false, dscErr := false, ovf := false, len := 0x0000#16, buf := [] }

/-- The result registers at reset (R39–R41, R160). -/
def Result.reset : Result :=
  { done := false, valid := false, reason := .ok, kind := .none, cmd := 0x00#8, lenf := 0x0000#16,
    level := 0x00#8, hour := 0x00#8, minute := 0x00#8, scene := 0x00#8, enabled := false,
    rawOff := 0x0000#16, rawLen := 0x0000#16 }

/-- `Clean` (R172): the reset state of R160 of a block with the parameters `p`, the buffers' bytes free. -/
def State.clean (p : Params) : State :=
  { params := p, inbox := [], unstuffEn := false, err := .reset, csum := 0x0000#16, tx := .reset,
    escBody := false, rx := .reset, res := .reset, txq := [], emitted := [] }

/-- The machine right after reset (R160), its parameters open (R8, R9). -/
def State.reset : State := State.clean Config.params

end Sys2Proof.Machine
end

