-- ==== Sys2Proof/Machine/Flags.lean ====
section
/-! DEFINITION. Sys2Proof/Machine/Flags.lean: the error flags and SetErr (60_exceptions.md R145), the codes of
REASON and KIND (R128, R130), and how flags are packed into a register of the read port (R43). -/

namespace Sys2Proof.Machine

/-- The flags of ERR by name; the bit number is the cause code (R145). -/
inductive ErrFlag where
  | illegal | txSeq | txOvf | escBusy
deriving DecidableEq, Repr

/-- Set one flag, leave the others (R145). -/
def ErrFlags.set (e : ErrFlags) : ErrFlag → ErrFlags
  | .illegal => { e with illegal := true }
  | .txSeq => { e with txSeq := true }
  | .txOvf => { e with txOvf := true }
  | .escBusy => { e with escBusy := true }

/-- The value of one flag. -/
def ErrFlags.get (e : ErrFlags) : ErrFlag → Bool
  | .illegal => e.illegal
  | .txSeq => e.txSeq
  | .txOvf => e.txOvf
  | .escBusy => e.escBusy

/-- `SetErr(X)`: sets flag X of ERR to 1 and leaves the other flags unchanged (R145). -/
def setErr (x : ErrFlag) (s : State) : State := { s with err := s.err.set x }

/-- The REASON codes, 4 bits (R128). -/
def Reason.code : Reason → BitVec 4
  | .ok => 0#4
  | .short => 1#4
  | .badStx => 2#4
  | .badEtx => 3#4
  | .badClass => 4#4
  | .badStatus => 5#4
  | .rxOverflow => 6#4
  | .escError => 7#4
  | .payloadShort => 8#4

/-- The KIND codes, 3 bits (R130). -/
def Kind.code : Kind → BitVec 3
  | .none => 0#3
  | .lightlevel => 1#3
  | .voltage => 2#3
  | .alarm => 3#3
  | .colorRaw => 4#3
  | .raw => 5#3

/-- Flags packed into a 16-bit register, the head at bit 0; unlisted bits read 0 (R43, R44). -/
def packFlags : List Bool → Word
  | [] => 0x0000#16
  | b :: bs => (packFlags bs <<< 1) ||| (if b then 0x0001#16 else 0x0000#16)

end Sys2Proof.Machine
end

