-- ==== Sys2Proof/Machine/Operands.lean ====
section
/-! DEFINITION. Sys2Proof/Machine/Operands.lean: the notation of 00_scope.md R11–R13 for bytes, words and frames,
and the named byte values of R15. -/

namespace Sys2Proof.Machine

/-- STX, the start-of-frame marker (R15). -/
def stx : Byte := 0x01#8
/-- ETX, the end-of-frame marker (R15). -/
def etx : Byte := 0x02#8
/-- ESC, the escape prefix (R15). -/
def esc : Byte := 0x03#8
/-- CLASS, the class/ack marker of a response (R15). -/
def classByte : Byte := 0x04#8
/-- OK_SENTINEL, the success sentinel (R15). -/
def okSentinel : Byte := 0x55#8

/-- Membership in RSV = {0x01, 0x02, 0x03} (R15). -/
def isReserved (b : Byte) : Bool := b == stx || b == etx || b == esc

/-- zext_16 of a byte (R11). -/
def zext16 (b : Byte) : Word := b.setWidth 16

/-- lo(v) = v[7:0] (R11). -/
def lo (v : Word) : Byte := v.extractLsb' 0 8

/-- hi(v) = v[15:8] (R11). -/
def hi (v : Word) : Byte := v.extractLsb' 8 8

/-- {a, b}: a the upper byte, b the lower (R11). -/
def join16 (a b : Byte) : Word := a ++ b

/-- F[a..b], indices a through b inclusive, empty when b < a (R13). -/
def slice (f : List Byte) (a b : Nat) : List Byte := (f.drop a).take (b + 1 - a)

/-- F[i] (R13). Every use stands behind a check that i < len(F) (R122, R124, R132), so the byte answered for an
index outside F reaches no state (log 15). -/
def byteAt (f : List Byte) (i : Nat) : Byte := f.getD i 0x00#8

end Sys2Proof.Machine
end

