-- ==== Sys2Proof/Machine/Ops.lean ====
section
/-! DEFINITION. Sys2Proof/Machine/Ops.lean: the shared operations on buffers, the transmit stream, the host's
inbox, and what takes the place of an exception entry on a block that has none: the acceptance of an illegal word
(30_encoding.md R63, 60_exceptions.md R144). -/

namespace Sys2Proof.Machine

/-! ### Buffers -/

/-- The byte a buffer lists at an index, if any. -/
def Memory.readByte : Memory → Nat → Option Byte
  | [], _ => none
  | (a, b) :: m, i => if a = i then some b else Memory.readByte m i

/-- Write one byte, keeping the canonical form (R51). -/
def Memory.writeByte : Memory → Nat → Byte → Memory
  | [], i, v => [(i, v)]
  | (a, b) :: m, i, v =>
    if i < a then (i, v) :: (a, b) :: m
    else if i = a then (i, v) :: m
    else (a, b) :: Memory.writeByte m i v

/-- TXBUF[i] (R14); a byte never written since reset is the free value (R33, log 6). -/
def txByte (s : State) (i : Nat) : Byte := (s.tx.buf.readByte i).getD (Config.txbufReset i)

/-- RXBUF[i] (R14); a byte never written since reset is the free value (R38, log 6). -/
def rxByte (s : State) (i : Nat) : Byte := (s.rx.buf.readByte i).getD (Config.rxbufReset i)

/-- TXBUF[0..TX_PLEN−1], the payload being collected (R84). -/
def txPayload (s : State) : List Byte := (List.range s.tx.plen.toNat).map (txByte s)

/-- RXBUF[0..RX_LEN−1], the frame being received (R120). -/
def rxFrame (s : State) : List Byte := (List.range s.rx.len.toNat).map (rxByte s)

/-! ### One named update per state element or path -/

def State.withInbox (s : State) (q : List HostEvent) : State := { s with inbox := q }
def State.withUnstuffEn (s : State) (b : Bool) : State := { s with unstuffEn := b }
def State.withCsum (s : State) (v : Word) : State := { s with csum := v }
def State.withTx (s : State) (p : TxPath) : State := { s with tx := p }
def State.withEscBody (s : State) (b : Bool) : State := { s with escBody := b }
def State.withRx (s : State) (p : RxPath) : State := { s with rx := p }
def State.withRes (s : State) (r : Result) : State := { s with res := r }

/-! ### The transmit output stream -/

/-- Append pairs to TXQ in order; the run's record of emitted pairs grows by the same (R26, R171 (a)). -/
def emitAll (ps : List TxPair) (s : State) : State :=
  { s with txq := s.txq ++ ps, emitted := s.emitted ++ ps }

/-- `Emit(b, last)` (R14). -/
def emit (b : Byte) (last : Bool) (s : State) : State := emitAll [⟨b, last⟩] s

/-- The pairs of a frame: only its final byte is marked last (R84, R101). -/
def pairs : List Byte → List TxPair
  | [] => []
  | [b] => [⟨b, true⟩]
  | b :: c :: bs => ⟨b, false⟩ :: pairs (c :: bs)

/-! ### The host -/

/-- The host takes the head pair of TXQ (R26); on an empty TXQ there is no head and nothing changes (log 9). -/
def takePair (s : State) : State := { s with txq := s.txq.drop 1 }

/-- `rst` is asserted: every state element takes its reset value (R23, R159, R160). The parameters, what the host
does next and the record of the run are no state elements (logs 1, 4, 8). -/
def assertReset (s : State) : State :=
  { State.clean s.params with inbox := s.inbox, emitted := s.emitted }

/-- The host's next event and the state with that event consumed, if it has one (R19, R22). -/
def nextEvent (s : State) : Option (HostEvent × State) :=
  match s.inbox with
  | [] => none
  | e :: rest => some (e, s.withInbox rest)

/-- An illegal word: SetErr(ILLEGAL) and no other change; it is not a trap (R63). -/
def acceptIllegal (s : State) : State := setErr .illegal s

end Sys2Proof.Machine
end

