-- ==== Sys2Proof/Machine/Checksum.lean ====
section
/-! DEFINITION. Sys2Proof/Machine/Checksum.lean: the checksum function and the operations CSUM_CLR and CSUM_ADD
(40_checksum.md). -/

namespace Sys2Proof.Machine

/-- `checksum(b)`: the sum of the bytes, each unsigned, mod 2^16 (R76). -/
def checksum (b : List Byte) : Word := BitVec.ofNat 16 ((b.map BitVec.toNat).sum)

/-- CSUM_CLR (R77). -/
def execCsumClr (s : State) : Host.Outcome State Fault Refusal :=
  .next (s.withCsum 0x0000#16)

/-- CSUM_ADD d (R78): a carry out of bit 15 is discarded. -/
def execCsumAdd (d : Byte) (s : State) : Host.Outcome State Fault Refusal :=
  .next (s.withCsum (s.csum + zext16 d))

end Sys2Proof.Machine
end

