-- ==== Sys2Proof/Machine/Escaper.lean ====
section
/-! DEFINITION. Sys2Proof/Machine/Escaper.lean: byte stuffing and the operation ESC_BYTE (42_escaper.md). -/

namespace Sys2Proof.Machine

/-- `esc(b)`: the escape pair of a reserved byte, any other byte itself (R96, R97). -/
def escBytes (b : Byte) : List Byte := if isReserved b then [esc, b + 3#8] else [b]

/-- The bytes of a frame after byte 0: each escaped but the last one, which never is (R96, R98). -/
def stuffTail : List Byte → List Byte
  | [] => []
  | [b] => [b]
  | b :: c :: bs => escBytes b ++ stuffTail (c :: bs)

/-- `stuff(f)` (R96); a one-byte frame is itself and an empty one is empty (R100). -/
def stuff : List Byte → List Byte
  | [] => []
  | b :: bs => b :: stuffTail bs

/-- The escaper's step on one byte (R95). -/
def escapeByte (d : Byte) (last : Bool) (s : State) : State :=
  if !s.escBody then (emit d last s).withEscBody (!last)
  else if last then (emit d true s).withEscBody false
  else if isReserved d then emit (d + 3#8) false (emit esc false s)
  else emit d false s

/-- ESC_BYTE d[, last] (R95). -/
def execEscByte (d : Byte) (last : Bool) (s : State) : Host.Outcome State Fault Refusal :=
  .next (escapeByte d last s)

end Sys2Proof.Machine
end

