-- ==== Sys2Proof/Machine/Builder.lean ====
section
/-! DEFINITION. Sys2Proof/Machine/Builder.lean: the InnerFrame and the operations TX_BEGIN, TX_DATA and TX_END
(41_tx_builder.md). -/

namespace Sys2Proof.Machine

/-- `build_inner_frame(c, p)` (R87). The 16-bit length field is exact for the payloads CORE can hold (R85); past
65532 bytes the function, which no operation calls there, keeps its low 16 bits (log 14). -/
def buildInnerFrame (c : Byte) (p : List Byte) : List Byte :=
  let len : Word := BitVec.ofNat 16 (3 + p.length)
  let h : List Byte := [stx, lo len, hi len, c] ++ p
  let k : Word := checksum (slice h 1 (h.length - 1))
  h ++ [lo k, hi k, etx]

/-- A frame is opened whatever was open before; TX_SEQ records an open one (R82). -/
def beginFrame (c : Byte) (s : State) : State :=
  let s1 := if s.tx.active then setErr .txSeq s else s
  s1.withTx { s1.tx with active := true, bad := false, cmd := c, plen := 0x0000#16 }

/-- One payload byte is appended, or dropped with its flag (R83). -/
def appendPayload (p : Byte) (s : State) : State :=
  if !s.tx.active then setErr .txSeq s
  else if s.tx.plen.toNat < s.params.maxPayload then
    s.withTx { s.tx with buf := s.tx.buf.writeByte s.tx.plen.toNat p, plen := s.tx.plen + 1#16 }
  else setErr .txOvf (s.withTx { s.tx with bad := true })

/-- The frame collected is built, summed, stuffed and emitted (R84, last branch). -/
def sendFrame (s : State) : State :=
  let f := buildInnerFrame s.tx.cmd (txPayload s)
  let s1 := s.withCsum (checksum (slice f 1 (f.length - 4)))
  let s2 := emitAll (pairs (stuff f)) s1
  s2.withTx { s2.tx with active := false }

/-- The end of a request frame, its checks in the order written (R84, R149). -/
def endFrame (s : State) : State :=
  if !s.tx.active then setErr .txSeq s
  else if s.escBody then setErr .escBusy s
  else if s.tx.bad then s.withTx { s.tx with active := false, bad := false }
  else sendFrame s

/-- TX_BEGIN c (R82). -/
def execTxBegin (c : Byte) (s : State) : Host.Outcome State Fault Refusal :=
  .next (beginFrame c s)

/-- TX_DATA p (R83). -/
def execTxData (p : Byte) (s : State) : Host.Outcome State Fault Refusal :=
  .next (appendPayload p s)

/-- TX_END (R84). -/
def execTxEnd (s : State) : Host.Outcome State Fault Refusal :=
  .next (endFrame s)

end Sys2Proof.Machine
end

