-- ==== Sys2Proof/Machine/Control.lean ====
section
/-! DEFINITION. Sys2Proof/Machine/Control.lean: NOP and CFG_WR (46_control.md). -/

namespace Sys2Proof.Machine

/-- NOP (R140). -/
def execNop (s : State) : Host.Outcome State Fault Refusal := .next s

/-- CFG_WR b (R141). -/
def execCfgWr (b : Bool) (s : State) : Host.Outcome State Fault Refusal :=
  .next (s.withUnstuffEn b)

end Sys2Proof.Machine
end

