-- ==== Sys2Proof/Machine/Decoder.lean ====
section
/-! DEFINITION. Sys2Proof/Machine/Decoder.lean: the payload decoder multiplexer (45_decoder.md). Each arm takes the
result registers as Complete() has cleared them and answers what it leaves in them. -/

namespace Sys2Proof.Machine

/-- `DecodeLevel(F, N, k)` (R133, R134). -/
def decodeLevel (f : List Byte) (n : Nat) (k : Kind) (r : Result) : Result :=
  if n < 8 then { r with reason := .payloadShort }
  else { r with kind := k, level := byteAt f 6 }

/-- `DecodeAlarm(F, N)` (R135). -/
def decodeAlarm (f : List Byte) (n : Nat) (r : Result) : Result :=
  if n < 11 then { r with reason := .payloadShort }
  else
    { r with
      kind := .alarm, hour := byteAt f 6, minute := byteAt f 7, scene := byteAt f 8,
      enabled := byteAt f 9 != 0x00#8 }

/-- `DecodeRaw(F, N, k)` (R136, R137). -/
def decodeRaw (n : Nat) (k : Kind) (r : Result) : Result :=
  { r with kind := k, rawOff := 6#16, rawLen := BitVec.ofNat 16 (n - 7) }

/-- `Decode(F, N)`: the first configured ID that equals F[4] selects the arm (R131). -/
def decodeFrame (p : Params) (f : List Byte) (n : Nat) (r : Result) : Result :=
  let c := byteAt f 4
  if c = p.voltageRead then decodeLevel f n .voltage r
  else if c = p.lightlevelRead then decodeLevel f n .lightlevel r
  else if c = p.alarmRead then decodeAlarm f n r
  else if c = p.colorRead then decodeRaw n .colorRaw r
  else decodeRaw n .raw r

end Sys2Proof.Machine
end

