-- ==== Sys2Proof/Machine/Validator.lean ====
section
/-! DEFINITION. Sys2Proof/Machine/Validator.lean: the checks on a received frame, the header fields and the
completion of a frame (44_validator.md). -/

namespace Sys2Proof.Machine

/-- The source's five checks in order, the first failure answered (R122). -/
def sourceCheck (f : List Byte) (n : Nat) : Reason :=
  if n < 6 then .short
  else if byteAt f 0 ≠ stx then .badStx
  else if byteAt f (n - 1) ≠ etx then .badEtx
  else if byteAt f 3 ≠ classByte then .badClass
  else if byteAt f 5 ≠ okSentinel then .badStatus
  else .ok

/-- `Check(F, N)`: CORE's own two checks, then the source's (R121). -/
def checkFrame (ovf dscErr : Bool) (f : List Byte) (n : Nat) : Reason :=
  if ovf then .rxOverflow
  else if dscErr then .escError
  else sourceCheck f n

/-- `is_valid(F)` (R123). -/
def isValid (f : List Byte) : Bool := sourceCheck f f.length == .ok

/-- The result registers as every completion first writes them: DONE set, the rest cleared, the two header fields
parsed (R120, R124). -/
def clearedResult (f : List Byte) (n : Nat) : Result :=
  { Result.reset with
    done := true
    lenf := if 3 ≤ n then join16 (byteAt f 2) (byteAt f 1) else 0x0000#16
    cmd := if 5 ≤ n then byteAt f 4 else 0x00#8 }

/-- The result registers a completed frame leaves (R120). -/
def completedResult (p : Params) (ovf dscErr : Bool) (f : List Byte) (n : Nat) : Result :=
  if checkFrame ovf dscErr f n = .ok then decodeFrame p f n { clearedResult f n with valid := true }
  else { clearedResult f n with reason := checkFrame ovf dscErr f n }

/-- `Complete()`, the end of a received frame (R120). -/
def complete (s : State) : State :=
  s.withRes (completedResult s.params s.rx.ovf s.rx.dscErr (rxFrame s) s.rx.len.toNat)

end Sys2Proof.Machine
end

