-- ==== Sys2Proof/Machine/Receive.lean ====
section
/-! DEFINITION. Sys2Proof/Machine/Receive.lean: the receive path, the descaper inside it, and the operations
RX_BYTE and RX_ABORT (43_rx_descaper.md). What a byte does to the path is a function of the path, so that the rest of
the state is seen to stay as it is. -/

namespace Sys2Proof.Machine

/-- `Store(v)`, the only writer of RXBUF, on a path whose buffer holds `cap` bytes (R106). -/
def store (cap : Nat) (v : Byte) (p : RxPath) : RxPath :=
  if p.len.toNat < cap then { p with buf := p.buf.writeByte p.len.toNat v, len := p.len + 1#16 }
  else { p with ovf := true }

/-- The second byte of a well-formed escape pair (R105, R111). -/
def isEscaped (d : Byte) : Bool := d == 0x04#8 || d == 0x05#8 || d == 0x06#8

/-- Byte 0 of a new frame: RX_MODE latched, the frame's state cleared, the byte stored verbatim; RX_BODY stays 0 when
it is also the last (R105, first branch; R110). -/
def receiveFirst (cap : Nat) (unstuffEn : Bool) (d : Byte) (last : Bool) (p : RxPath) : RxPath :=
  let p1 := { p with mode := unstuffEn, len := 0x0000#16, dscEsc := false, dscErr := false, ovf := false }
  { store cap d p1 with body := !last }

/-- The final byte of a longer frame: stored verbatim, a pending escape prefix is an error (R105, R112). -/
def receiveFinal (cap : Nat) (d : Byte) (p : RxPath) : RxPath :=
  let p1 := { p with dscErr := p.dscErr || (p.mode && p.dscEsc), dscEsc := false }
  { store cap d p1 with body := false }

/-- A byte strictly inside a frame (R105, last four branches; R111, R113). -/
def receiveInner (cap : Nat) (d : Byte) (p : RxPath) : RxPath :=
  if !p.mode then store cap d p
  else if p.dscEsc then
    let p1 := store cap (d - 3#8) p
    { p1 with dscErr := p1.dscErr || !isEscaped d, dscEsc := false }
  else if d = esc then { p with dscEsc := true }
  else store cap d p

/-- The receive path after one received byte (R105). -/
def receivePath (cap : Nat) (unstuffEn : Bool) (d : Byte) (last : Bool) (p : RxPath) : RxPath :=
  if !p.body then receiveFirst cap unstuffEn d last p
  else if last then receiveFinal cap d p
  else receiveInner cap d p

/-- One received byte; the last byte of a frame completes it once the path is up to date (R105). -/
def receiveByte (d : Byte) (last : Bool) (s : State) : State :=
  let s1 := s.withRx (receivePath s.params.maxRx s.unstuffEn d last s.rx)
  if last then complete s1 else s1

/-- RX_BYTE d[, last] (R105). -/
def execRxByte (d : Byte) (last : Bool) (s : State) : Host.Outcome State Fault Refusal :=
  .next (receiveByte d last s)

/-- RX_ABORT (R107). -/
def execRxAbort (s : State) : Host.Outcome State Fault Refusal :=
  .next (s.withRx
    { s.rx with body := false, len := 0x0000#16, dscEsc := false, dscErr := false, ovf := false })

end Sys2Proof.Machine
end

