-- ==== Sys2Proof/Machine/Dispatch.lean ====
section
/-! DEFINITION. Sys2Proof/Machine/Dispatch.lean: exec, one arm for each operation of 30_encoding.md R65. -/

namespace Sys2Proof.Machine

def exec (i : Instr) (s : State) : Host.Outcome State Fault Refusal :=
  match i with
  | .nop => Sys2Proof.Machine.execNop s
  | .csumClr => Sys2Proof.Machine.execCsumClr s
  | .csumAdd d => Sys2Proof.Machine.execCsumAdd d s
  | .txBegin c => Sys2Proof.Machine.execTxBegin c s
  | .txData p => Sys2Proof.Machine.execTxData p s
  | .txEnd => Sys2Proof.Machine.execTxEnd s
  | .escByte d last => Sys2Proof.Machine.execEscByte d last s
  | .rxByte d last => Sys2Proof.Machine.execRxByte d last s
  | .rxAbort => Sys2Proof.Machine.execRxAbort s
  | .cfgWr b => Sys2Proof.Machine.execCfgWr b s

end Sys2Proof.Machine
end

