-- ==== Sys2Proof/Machine/Step.lean ====
section
/-! DEFINITION. Sys2Proof/Machine/Step.lean: one step, the acceptance of one word (10_state.md R19, R22) or another
thing the host does between two words (R23, R26). -/

namespace Sys2Proof.Machine

/-- One step. A legal word performs its operation (R62), an illegal one sets ERR.ILLEGAL (R63), `rst` resets (R159),
the host takes a pair (R26). While the host does nothing, nothing changes (R22, R147; log 2). -/
def step (s : State) : Host.Outcome State Fault Refusal :=
  match nextEvent s with
  | none => .next s
  | some (.op w, s1) =>
    match decodeWord w with
    | .ok i => exec i s1
    | .error _ => .next (acceptIllegal s1)
  | some (.rst, s1) => .next (assertReset s1)
  | some (.takePair, s1) => .next (takePair s1)

/-- The host issues the word of `tableWord nbits w` next (log 3). -/
def State.withFetchWord (s : State) (nbits w : Nat) : State :=
  s.withInbox (.op (tableWord nbits w) :: s.inbox)

end Sys2Proof.Machine
end

