-- ==== Sys2Proof/Machine/Assembler.lean ====
section
/-! DEFINITION. Sys2Proof/Machine/Assembler.lean: the assembly syntax of 30_encoding.md R69: one operation a line, the
mnemonic, then operands separated by commas; numbers decimal or 0xNN; a semicolon starts a comment. What R69 leaves open
(blanks between tokens, letter case, the count of digits) is fixed as log 16 says. -/

namespace Sys2Proof.Machine

/-- The value of a hexadecimal digit, either case. -/
def hexDigit (c : Char) : Option Nat :=
  if '0' ≤ c ∧ c ≤ '9' then some (c.toNat - '0'.toNat)
  else if 'a' ≤ c ∧ c ≤ 'f' then some (c.toNat - 'a'.toNat + 10)
  else if 'A' ≤ c ∧ c ≤ 'F' then some (c.toNat - 'A'.toNat + 10)
  else none

/-- The value of a decimal digit. -/
def decDigit (c : Char) : Option Nat :=
  if '0' ≤ c ∧ c ≤ '9' then some (c.toNat - '0'.toNat) else none

/-- A digit string in a base, most significant digit first, onto an accumulator. -/
def digitsValue (base : Nat) (digit : Char → Option Nat) : List Char → Nat → Option Nat
  | [], acc => some acc
  | c :: cs, acc => (digit c).bind fun v => digitsValue base digit cs (acc * base + v)

/-- A number, `0xNN` or decimal (R69). How many digits it may have R69 leaves open: the model takes any count, one or more,
leading zeros included (log 16, DESIGN CHOICE). -/
def parseNumber : List Char → Option Nat
  | [] => none
  | ['0', 'x'] => none
  | '0' :: 'x' :: ds => digitsValue 16 hexDigit ds 0
  | ds => digitsValue 10 decDigit ds 0

/-- A byte operand: a number up to 255 (R64). -/
def parseByte (t : List Char) : Option Byte :=
  (parseNumber t).bind fun n => if n < 256 then some (BitVec.ofNat 8 n) else none

/-- What stands before the comment (R69). -/
def dropComment (line : List Char) : List Char := line.takeWhile (· != ';')

/-- A blank or a tab. -/
def isBlank (c : Char) : Bool := c == ' ' || c == '\t'

/-- A piece of text without the blanks around it. -/
def trim (t : List Char) : List Char :=
  ((t.dropWhile isBlank).reverse.dropWhile isBlank).reverse

/-- The text between commas. -/
def splitCommas : List Char → List (List Char)
  | [] => [[]]
  | c :: cs =>
    match splitCommas cs with
    | [] => [[c]]
    | p :: ps => if c = ',' then [] :: p :: ps else (c :: p) :: ps

/-- The operands of a line; no text, no operands. -/
def operandsOf (t : List Char) : List (List Char) :=
  match trim t with
  | [] => []
  | u => (splitCommas u).map trim

/-- The operation of a mnemonic and its operands (R69), if they are one. -/
def assembleOperation (m : List Char) (ops : List (List Char)) : Option Instr :=
  match ops with
  | [] =>
    if m = "NOP".toList then some .nop
    else if m = "CSUM_CLR".toList then some .csumClr
    else if m = "TX_END".toList then some .txEnd
    else if m = "RX_ABORT".toList then some .rxAbort
    else none
  | [a] =>
    (parseByte a).bind fun d =>
      if m = "CSUM_ADD".toList then some (.csumAdd d)
      else if m = "TX_BEGIN".toList then some (.txBegin d)
      else if m = "TX_DATA".toList then some (.txData d)
      else if m = "ESC_BYTE".toList then some (.escByte d false)
      else if m = "RX_BYTE".toList then some (.rxByte d false)
      else if m = "CFG_WR".toList then
        (if d = 0#8 then some (.cfgWr false) else if d = 1#8 then some (.cfgWr true) else none)
      else none
  | [a, l] =>
    if l = "last".toList then
      (parseByte a).bind fun d =>
        if m = "ESC_BYTE".toList then some (.escByte d true)
        else if m = "RX_BYTE".toList then some (.rxByte d true)
        else none
    else none
  | _ => none

/-- What one line of assembly says. -/
inductive AsmLine where
  /-- Nothing but blanks and a comment. -/
  | blank
  /-- One operation. -/
  | operation (i : Instr)
  /-- Not a line of R69. -/
  | malformed
deriving DecidableEq, Repr

/-- One line of assembly (R69). -/
def assembleLine (line : List Char) : AsmLine :=
  match trim (dropComment line) with
  | [] => .blank
  | t =>
    match assembleOperation (t.takeWhile (!isBlank ·)) (operandsOf (t.dropWhile (!isBlank ·))) with
    | some i => .operation i
    | none => .malformed

/-- A hexadecimal digit of R69. -/
def hexChar (n : BitVec 4) : Char :=
  ("0123456789ABCDEF".toList).getD n.toNat '0'

/-- A byte as `0xNN` (R69). -/
def byteText (b : Byte) : List Char :=
  ['0', 'x', hexChar (b.extractLsb' 4 4), hexChar (b.extractLsb' 0 4)]

/-- The operand text of a byte with its L bit (R69). -/
def byteLastText (d : Byte) (last : Bool) : List Char :=
  byteText d ++ (if last then ", last".toList else [])

/-- The line of assembly of an operation (R69). -/
def asmText : Instr → List Char
  | .nop => "NOP".toList
  | .csumClr => "CSUM_CLR".toList
  | .csumAdd d => "CSUM_ADD ".toList ++ byteText d
  | .txBegin c => "TX_BEGIN ".toList ++ byteText c
  | .txData p => "TX_DATA ".toList ++ byteText p
  | .txEnd => "TX_END".toList
  | .escByte d last => "ESC_BYTE ".toList ++ byteLastText d last
  | .rxByte d last => "RX_BYTE ".toList ++ byteLastText d last
  | .rxAbort => "RX_ABORT".toList
  | .cfgWr b => "CFG_WR ".toList ++ (if b then ['1'] else ['0'])

end Sys2Proof.Machine
end

