-- ==== Sys2Proof/Machine/Codec.lean ====
section
/-! DEFINITION. Sys2Proof/Machine/Codec.lean: the source's functions on whole lists that the operations realise byte
by byte (00_scope.md R17) and that no operation calls: unstuff and rxframe (43_rx_descaper.md R108), decode and its
tagged result (45_decoder.md R138). The others are `checksum` (R76), `buildInnerFrame` (R87), `stuff` (R96) and
`isValid` (R123). -/

namespace Sys2Proof.Machine

/-- U of R108: the body bytes descaped, whether a prefix is pending at the end, whether a pair was ill-formed. -/
def unstuffBody : List Byte → Bool → Bool → List Byte × Bool × Bool
  | [], pend, err => ([], pend, err)
  | b :: t, false, err =>
    if b = esc then unstuffBody t true err
    else let r := unstuffBody t false err; (b :: r.1, r.2)
  | b :: t, true, err =>
    let r := unstuffBody t false (err || !isEscaped b); ((b - 3#8) :: r.1, r.2)

/-- `unstuff(r)` and its escape-error bit (R108). R108 states it for len(r) ≥ 1; on the empty list, which is no
received frame, it answers the empty list (log 13). -/
def unstuff : List Byte → List Byte × Bool
  | [] => ([], false)
  | [b] => ([b], false)
  | b :: c :: t =>
    let u := unstuffBody ((c :: t).dropLast) false false
    ([b] ++ u.1 ++ [(c :: t).getLastD c], u.2.2 || u.2.1)

/-- `rxframe(r, m)`: the frame CORE validates and the escape-error bit (R108, which states it for len(r) ≥ 1; the empty
list is answered by the empty list without error in both modes, log 13). -/
def rxframeOf (r : List Byte) (mode : Bool) : List Byte × Bool :=
  if mode then unstuff r else (r, false)

/-- The source's DecodedResult (R129), a raw result with its payload bytes. -/
inductive DecodedResult where
  | lightlevel (level : Byte)
  | voltage (level : Byte)
  | alarm (hour minute scene : Byte) (enabled : Bool)
  | colorRaw (payload : List Byte)
  | raw (payload : List Byte)
deriving DecidableEq, Repr

/-- The result of a valid frame, none when a structured field lies outside the payload region (R131–R137). -/
def decodePayload (p : Params) (f : List Byte) : Option DecodedResult :=
  let n := f.length
  let c := byteAt f 4
  if c = p.voltageRead then (if n < 8 then none else some (.voltage (byteAt f 6)))
  else if c = p.lightlevelRead then (if n < 8 then none else some (.lightlevel (byteAt f 6)))
  else if c = p.alarmRead then
    (if n < 11 then none
     else some (.alarm (byteAt f 6) (byteAt f 7) (byteAt f 8) (byteAt f 9 != 0x00#8)))
  else if c = p.colorRead then some (.colorRaw (slice f 6 (n - 2)))
  else some (.raw (slice f 6 (n - 2)))

/-- `decode(response)`: none for every frame that fails `is_valid` (R138, R139). -/
def decode (p : Params) (f : List Byte) : Option DecodedResult :=
  if isValid f then decodePayload p f else none

/-- The raw payload slice that the result registers name, read from RXBUF (R129). -/
def rawSlice (s : State) : List Byte :=
  (List.range s.res.rawLen.toNat).map fun i => rxByte s (s.res.rawOff.toNat + i)

/-- The DecodedResult that the result registers hold (R129, R138). -/
def decodedResult (s : State) : Option DecodedResult :=
  match s.res.kind with
  | .none => none
  | .lightlevel => some (.lightlevel s.res.level)
  | .voltage => some (.voltage s.res.level)
  | .alarm => some (.alarm s.res.hour s.res.minute s.res.scene s.res.enabled)
  | .colorRaw => some (.colorRaw (rawSlice s))
  | .raw => some (.raw (rawSlice s))

end Sys2Proof.Machine
end

