-- ==== Sys2Proof/Machine/Ports.lean ====
section
/-! DEFINITION. Sys2Proof/Machine/Ports.lean: the read ports (10_state.md R24, R25), the register map (R43) and what
a run is observed by (70_reset_and_hazards.md R171). Functions of the state: reading has no side effect. -/

namespace Sys2Proof.Machine

/-- `ReadReg(n)`: the register map; bits and indices not listed read 0 (R43). -/
def readReg (s : State) (n : BitVec 5) : Word :=
  match n.toNat with
  | 0x00 => packFlags [s.unstuffEn]
  | 0x01 => packFlags [s.err.illegal, s.err.txSeq, s.err.txOvf, s.err.escBusy]
  | 0x02 => s.csum
  | 0x03 => packFlags [s.tx.active, s.tx.bad]
  | 0x04 => zext16 s.tx.cmd
  | 0x05 => s.tx.plen
  | 0x06 => packFlags [s.escBody]
  | 0x07 => packFlags [s.rx.body, s.rx.mode, s.rx.dscEsc, s.rx.dscErr, s.rx.ovf]
  | 0x08 => s.rx.len
  | 0x09 => packFlags [s.res.done, s.res.valid]
  | 0x0A => s.res.reason.code.setWidth 16
  | 0x0B => s.res.kind.code.setWidth 16
  | 0x0C => zext16 s.res.cmd
  | 0x0D => s.res.lenf
  | 0x0E => zext16 s.res.level
  | 0x0F => zext16 s.res.hour
  | 0x10 => zext16 s.res.minute
  | 0x11 => zext16 s.res.scene
  | 0x12 => packFlags [s.res.enabled]
  | 0x13 => s.res.rawOff
  | 0x14 => s.res.rawLen
  | _ => 0x0000#16

/-- The rxbuf port: RXBUF[sel] below RX_LEN, elsewhere the draw, any byte (R25, log 7). -/
def rxbufRd (s : State) (sel : Word) (draw : Byte) : Byte :=
  if sel.toNat < s.rx.len.toNat then rxByte s sel.toNat else draw

/-- The txbuf port: TXBUF[sel] below TX_PLEN, elsewhere the draw, any byte (R25, log 7). -/
def txbufRd (s : State) (sel : Word) (draw : Byte) : Byte :=
  if sel.toNat < s.tx.plen.toNat then txByte s sel.toNat else draw

/-- What a run is observed by (R171). -/
structure Observation where
  /-- (a) every pair ever emitted, before the host takes any. -/
  emitted : List TxPair
  /-- (b) every register of R43, index 0 first. -/
  regs : List Word
  /-- (c) RXBUF[0..RX_LEN−1]. -/
  rxBytes : List Byte
  /-- (c) TXBUF[0..TX_PLEN−1]. -/
  txBytes : List Byte
deriving DecidableEq, Repr

/-- The observation of a state that a run ends in (R171). -/
def State.observe (s : State) : Observation where
  emitted := s.emitted
  regs := (List.range 32).map fun n => readReg s (BitVec.ofNat 5 n)
  rxBytes := rxFrame s
  txBytes := txPayload s

end Sys2Proof.Machine
end

