-- ==== Sys2Proof/Machine/Programs.lean ====
section
/-! DEFINITION. Sys2Proof/Machine/Programs.lean: the pseudo-operations (30_encoding.md R70–R73), a list of operations
performed in order, and a program as a list of words given to the host (R75, R171). -/

namespace Sys2Proof.Machine

/-- `TX_FRAME c, [p0, …]` (R70). -/
def pseudoTxFrame (c : Byte) (p : List Byte) : List Instr :=
  .txBegin c :: (p.map .txData ++ [.txEnd])

/-- `ESC_FRAME [f0, …]` (R71): only the final byte is marked last; of the empty frame no word is issued (R100). -/
def pseudoEscFrame (f : List Byte) : List Instr :=
  (pairs f).map fun q => .escByte q.byte q.last

/-- `RX_FRAME [r0, …]` (R72): only the final byte is marked last. R72 gives it for k ≥ 1; of the empty list, which
R72 leaves open, the model makes no words (log 18, DESIGN CHOICE). -/
def pseudoRxFrame (r : List Byte) : List Instr :=
  (pairs r).map fun q => .rxByte q.byte q.last

/-- `CHECKSUM [b0, …]` (R73). -/
def pseudoChecksum (b : List Byte) : List Instr :=
  .csumClr :: b.map .csumAdd

/-- Operations performed one after the other, each on the state the one before left (R57). -/
def execAll : List Instr → State → Host.Outcome State Fault Refusal
  | [], s => .next s
  | i :: is, s =>
    match exec i s with
    | .next t => execAll is t
    | .fault f => .fault f
    | .refused r => .refused r

/-- The words of a list of operations (R69, R75). -/
def programOf (is : List Instr) : List Word := is.map encode

/-- The host will issue the words of a program, in order, after what it already intends to do (R75, R171). -/
def State.withProgram (s : State) (ws : List Word) : State :=
  s.withInbox (s.inbox ++ ws.map .op)

end Sys2Proof.Machine
end

