-- ==== Sys2Proof/Safety.lean ====
section
/-! DEFINITION. Sys2Proof/Safety.lean: the terms claims use: the invariant of CORE's states, a run without misuse, and
when two states differ only in bytes that have no meaning. -/

namespace Sys2Proof.Machine

/-- A run without misuse so far: every ERR flag is 0 (R158). -/
def NoMisuse (s : State) : Prop := s.err = .reset

/-- Every index a buffer lists is inside its capacity (R55). -/
def Memory.Within (m : Memory) (cap : Nat) : Prop := ∀ c ∈ m, c.1 < cap

/-- Every index below a length has been written. -/
def Memory.Filled (m : Memory) (n : Nat) : Prop := ∀ i, i < n → (m.readByte i).isSome = true

/-- The transmit path (R31–R33, R55): TXBUF canonical and inside its capacity, TX_PLEN ≤ MAX_PAYLOAD with every byte
below it written, TX_BAD only in an open frame whose buffer is full. -/
def TxInv (s : State) : Prop :=
  s.tx.buf.wf = true ∧ s.tx.buf.Within s.params.maxPayload ∧ s.tx.plen.toNat ≤ s.params.maxPayload ∧
    s.tx.buf.Filled s.tx.plen.toNat ∧
    (s.tx.bad = true → s.tx.active = true ∧ s.tx.plen.toNat = s.params.maxPayload)

/-- The receive path (R35–R38, R55, R121): RXBUF canonical and inside its capacity, RX_LEN ≤ MAX_RX with every byte
below it written; a pending escape prefix only inside a frame in RX_MODE 1; an escape error only in RX_MODE 1; inside a
frame byte 0 is stored; an overflow only with a full buffer. -/
def RxInv (s : State) : Prop :=
  s.rx.buf.wf = true ∧ s.rx.buf.Within s.params.maxRx ∧ s.rx.len.toNat ≤ s.params.maxRx ∧
    s.rx.buf.Filled s.rx.len.toNat ∧
    (s.rx.dscEsc = true → s.rx.body = true ∧ s.rx.mode = true) ∧
    (s.rx.dscErr = true → s.rx.mode = true) ∧
    (s.rx.body = true → 1 ≤ s.rx.len.toNat) ∧
    (s.rx.ovf = true → s.rx.len.toNat = s.params.maxRx)

/-- The fields a KIND does not use hold 0 (R129); a raw slice starts at index 6 (R136). -/
def Result.FieldsFitKind (r : Result) : Prop :=
  match r.kind with
  | .none =>
    r.level = 0#8 ∧ r.hour = 0#8 ∧ r.minute = 0#8 ∧ r.scene = 0#8 ∧ r.enabled = false ∧
      r.rawOff = 0#16 ∧ r.rawLen = 0#16
  | .lightlevel | .voltage =>
    r.hour = 0#8 ∧ r.minute = 0#8 ∧ r.scene = 0#8 ∧ r.enabled = false ∧ r.rawOff = 0#16 ∧ r.rawLen = 0#16
  | .alarm => r.level = 0#8 ∧ r.rawOff = 0#16 ∧ r.rawLen = 0#16
  | .colorRaw | .raw =>
    r.level = 0#8 ∧ r.hour = 0#8 ∧ r.minute = 0#8 ∧ r.scene = 0#8 ∧ r.enabled = false ∧ r.rawOff = 6#16

/-- The result registers (R39, R128, R129): before the first completion all at reset; VALID = 1 exactly with the codes
OK and PAYLOAD_SHORT of a completed frame; a KIND exactly with VALID = 1 and OK. -/
def Result.Inv (r : Result) : Prop :=
  (r.done = false → r = Result.reset) ∧
    (r.valid = true ↔ r.done = true ∧ (r.reason = .ok ∨ r.reason = .payloadShort)) ∧
    (r.kind ≠ .none ↔ r.valid = true ∧ r.reason = .ok) ∧
    r.FieldsFitKind

/-- The invariant of CORE's states. The pairs in TXQ are the latest of the pairs ever emitted (R26, R171). -/
def State.Inv (s : State) : Prop :=
  TxInv s ∧ RxInv s ∧ s.res.Inv ∧ s.txq <:+ s.emitted

/-- Two states that differ at most in buffer bytes without meaning: those at and above TX_PLEN and RX_LEN (R33, R38). -/
def SameMeaning (s t : State) : Prop :=
  t = { s with tx := { s.tx with buf := t.tx.buf }, rx := { s.rx with buf := t.rx.buf } } ∧
    (∀ i, i < s.tx.plen.toNat → txByte t i = txByte s i) ∧
    (∀ i, i < s.rx.len.toNat → rxByte t i = rxByte s i)

/-- The index at which RX_BYTE stores its byte, when it stores one: 0 at the start of a frame, RX_LEN inside one
(R105, R106). -/
def rxStoreIndex (s : State) : Nat := if s.rx.body then s.rx.len.toNat else 0

end Sys2Proof.Machine
end

