-- ==== Sys2Proof/Certificates/Slice0/Obligations.lean ====
section
/-! DEFINITION. Sys2Proof/Certificates/Slice0/Obligations.lean: the statements for the provers. Each docstring names the
rule of spec/ that the statement formalises. -/

open Sys2Proof Sys2Proof.Machine

/-! ### Encoding (30_encoding.md) -/

/-- R62, R69: a word decodes to an operation exactly when it is that operation's word: decoding the encoding of any
operation, at every value of its operands, gives it back, and no other word gives it. -/
def Obligations.DecodeInvertsEncode : Prop :=
  (∀ i : Instr, decodeWord (encode i) = .ok i) ∧ (∀ (w : Word) (i : Instr), decodeWord w = .ok i → encode i = w)

/-- R66: the words that decode are exactly those with none of R66's bits set; and the mask of each row of R65 is OPC and
exactly those bits: from a word the row matches, setting one bit outside OPC leaves it legal iff the mask lacks the bit. -/
def Obligations.LegalWordsAreTheWellFormedOnes : Prop :=
  (∀ w : Word, (∃ i, decodeWord w = .ok i) ↔ (fieldsOf w).wellFormed = true) ∧
    (∀ r ∈ opcodeRows, ∀ k : Fin 12,
      (fieldsOf (r.pattern ||| (1#16 <<< k.val))).wellFormed = !r.mask.getLsbD k.val)

/-- R62: at most one row matches a word, and the decoder answers the operation of the row that does. -/
def Obligations.AtMostOneRowMatches : Prop :=
  ∀ w : Word, (opcodeRows.filter (·.hits w)).length ≤ 1 ∧
    (∀ i, decodeWord w = .ok i ↔ ∃ r ∈ opcodeRows, r.hits w = true ∧ r.build w = i)

/-- R74, the encoding examples and the illegal examples. -/
def Obligations.EncodingExamples : Prop :=
  [Instr.nop, .csumAdd 0xFF#8, .txBegin 0x30#8, .txData 0x01#8, .txEnd, .escByte 0x02#8 true, .rxByte 0x55#8 false,
      .rxByte 0x02#8 true, .rxAbort, .cfgWr true].map encode =
    [0x0000#16, 0x20FF#16, 0x3030#16, 0x4001#16, 0x5000#16, 0x6102#16, 0x7055#16, 0x7102#16, 0x8000#16, 0x9001#16] ∧
    decodeWord 0x0000#16 = .ok .nop ∧ decodeWord 0x20FF#16 = .ok (.csumAdd 0xFF#8) ∧
    decodeWord 0x3030#16 = .ok (.txBegin 0x30#8) ∧ decodeWord 0x4001#16 = .ok (.txData 0x01#8) ∧
    decodeWord 0x5000#16 = .ok .txEnd ∧ decodeWord 0x6102#16 = .ok (.escByte 0x02#8 true) ∧
    decodeWord 0x7055#16 = .ok (.rxByte 0x55#8 false) ∧ decodeWord 0x7102#16 = .ok (.rxByte 0x02#8 true) ∧
    decodeWord 0x8000#16 = .ok .rxAbort ∧ decodeWord 0x9001#16 = .ok (.cfgWr true) ∧
    (∀ w ∈ [0x0001#16, 0x2100#16, 0x7200#16, 0x9002#16, 0xA000#16], ∃ r, decodeWord w = .error r)

/-- R69: the assembler reads the line of assembly of any operation as that operation. How the line is printed (blanks,
letter case, two digits a byte) is the model's choice (log 16). -/
def Obligations.AssemblerReadsItsOwnLines : Prop :=
  ∀ i : Instr, assembleLine (asmText i) = .operation i

/-! ### The step (10_state.md R19, R22; 30_encoding.md R62, R63) -/

/-- R22, R62: accepting a word performs exactly the operation the word decodes to, on the state with the word consumed.
That the host's events are a list in the state is the model's choice (log 1). -/
def Obligations.StepRunsDecodedWord : Prop :=
  ∀ (s : State) (w : Word) (rest : List HostEvent) (i : Instr),
    s.inbox = .op w :: rest → decodeWord w = .ok i → step s = exec i (s.withInbox rest)

/-- R63: a word with OPC in 0xA..0xF, a nonzero RSV, or a bit set that R66 requires to be zero performs SetErr(ILLEGAL)
and changes no other state; R142: so does every word 0x9002..0x90FF, which leaves UNSTUFF_EN unchanged. -/
def Obligations.IllegalWordSetsIllegalOnly : Prop :=
  ∀ (s : State) (w : Word) (rest : List HostEvent), s.inbox = .op w :: rest →
    ((fieldsOf w).wellFormed = false →
      step s = .next { s with inbox := rest, err := { s.err with illegal := true } }) ∧
    (0x9002 ≤ w.toNat → w.toNat ≤ 0x90FF → ∃ t, step s = .next t ∧ t.err.illegal = true ∧ t.unstuffEn = s.unstuffEn)

/-- R144: no trap and no stop: every operation word, legal or not, has a next state, in which the next word is accepted. -/
def Obligations.EveryWordAnswersNext : Prop :=
  ∀ (s : State) (w : Word) (rest : List HostEvent), s.inbox = .op w :: rest →
    ∃ t, step s = .next t ∧ t.inbox = rest

/-- R26: TXQ only grows at its end when a word is accepted, shrinks by its head when the host takes a pair, is empty
after a reset, and stands still otherwise. The model's own in it: that a step without an event changes nothing (log 2,
DEDUCED), the record of emitted pairs (log 8, DESIGN CHOICE), that taking from an empty TXQ changes nothing (log 9,
DEDUCED), and that a reset drops the pairs not yet taken (log 10, DEDUCED). -/
def Obligations.TxqGrowsByEmitShrinksByHost : Prop :=
  ∀ s t : State, step s = .next t →
    match s.inbox with
    | [] => t.txq = s.txq
    | .op _ :: _ => ∃ new, t.txq = s.txq ++ new ∧ t.emitted = s.emitted ++ new
    | .rst :: _ => t.txq = [] ∧ t.emitted = s.emitted
    | .takePair :: _ => t.txq = s.txq.tail ∧ t = { s with inbox := s.inbox.tail, txq := t.txq }

/-- R8, R9, R46: the parameters are fixed: no step changes them. That they are a field of the state is the model's choice
(log 4). -/
def Obligations.ParametersNeverChange : Prop :=
  ∀ s t : State, step s = .next t → t.params = s.params

/-! ### Reset (70_reset_and_hazards.md R159, R160) -/

/-- R23, R160: asserting rst sets every state element to its reset value. The model's own in it: R160 says of the buffers'
bytes only 'unspecified (any bytes)', and that after every rst each index reads as the model's free value, the same one
each time, is its choice (log 6, DESIGN CHOICE); that the parameters, the pending events and the record of emitted pairs
keep their values (logs 1, 4, 8, DESIGN CHOICE), and that TXQ loses the pairs not yet taken (log 10, DEDUCED). -/
def Obligations.RstSetsEveryElement : Prop :=
  ∀ (s : State) (rest : List HostEvent), s.inbox = .rst :: rest →
    ∃ t, step s = .next t ∧
      t.unstuffEn = false ∧ t.err = ⟨false, false, false, false⟩ ∧ t.csum = 0#16 ∧
      t.tx.active = false ∧ t.tx.bad = false ∧ t.tx.cmd = 0#8 ∧ t.tx.plen = 0#16 ∧
      (∀ i, txByte t i = Config.txbufReset i) ∧ t.escBody = false ∧
      t.rx.body = false ∧ t.rx.mode = false ∧ t.rx.dscEsc = false ∧ t.rx.dscErr = false ∧
      t.rx.ovf = false ∧ t.rx.len = 0#16 ∧ (∀ i, rxByte t i = Config.rxbufReset i) ∧
      t.res.done = false ∧ t.res.valid = false ∧ t.res.reason = .ok ∧ t.res.kind = .none ∧
      t.res.cmd = 0#8 ∧ t.res.lenf = 0#16 ∧ t.res.level = 0#8 ∧ t.res.hour = 0#8 ∧ t.res.minute = 0#8 ∧
      t.res.scene = 0#8 ∧ t.res.enabled = false ∧ t.res.rawOff = 0#16 ∧ t.res.rawLen = 0#16 ∧ t.txq = [] ∧
      t.params = s.params ∧ t.inbox = rest ∧ t.emitted = s.emitted

/-- R160 read at the port: at State.reset every register of R43 reads 0x0000, TXQ is empty and the meaningful part of
each buffer is empty. -/
def Obligations.ResetReadsZeroEverywhere : Prop :=
  (∀ n, readReg State.reset n = 0#16) ∧ State.reset.txq = [] ∧ rxFrame State.reset = [] ∧
    txPayload State.reset = []

/-! ### Checksum (40_checksum.md) -/

/-- R76: the sum of the bytes mod 2^16, 0 for the empty list, independent of the order. -/
def Obligations.ChecksumIsTheSum : Prop :=
  ∀ b : List Byte, (checksum b).toNat = (b.foldr (fun x n => x.toNat + n) 0) % 65536 ∧ checksum [] = 0#16 ∧
    (∀ c : List Byte, b.Perm c → checksum b = checksum c)

/-- R77, R78: CSUM_CLR clears the accumulator; CSUM_ADD adds one unsigned byte mod 2^16; neither changes anything else
and no flag records the carry. With their encodings. -/
def Obligations.ChecksumOperations : Prop :=
  ∀ (d : Byte) (s : State),
    (∀ w, decodeWord w = .ok .csumClr ↔ w = 0x1000#16) ∧
      (∀ w, decodeWord w = .ok (.csumAdd d) ↔ w = 0x2000#16 ||| d.setWidth 16) ∧
      exec .csumClr s = .next { s with csum := 0x0000#16 } ∧
      (∃ v : Word, exec (.csumAdd d) s = .next { s with csum := v } ∧
        v.toNat = (s.csum.toNat + d.toNat) % 65536)

/-- R79: CSUM_CLR then CSUM_ADD for each byte leaves the checksum of the list and changes nothing else; without the
CSUM_CLR the same words add the bytes to the starting value mod 2^16. -/
def Obligations.ChecksumProgramComputesChecksum : Prop :=
  ∀ (b : List Byte) (s : State),
    execAll (pseudoChecksum b) s = .next { s with csum := checksum b } ∧
      (∃ v : Word, execAll (b.map .csumAdd) s = .next { s with csum := v } ∧
        v.toNat = (s.csum.toNat + (b.map BitVec.toNat).sum) % 65536)

/-- R80: 257 bytes 0xFF sum to 0xFFFF, 258 wrap to 0x00FE; the sum inside a request frame can reach 2^16 only when
3 + n ≥ 258, so only when MAX_PAYLOAD ≥ 255. -/
def Obligations.ChecksumWrapNeedsLongPayload : Prop :=
  checksum (List.replicate 257 0xFF#8) = 0xFFFF#16 ∧ checksum (List.replicate 258 0xFF#8) = 0x00FE#16 ∧
    (∀ (c : Byte) (p : List Byte) (k : Params), p.length ≤ k.maxPayload →
      65536 ≤ ((slice (buildInnerFrame c p) 1 (3 + p.length)).map BitVec.toNat).sum →
        258 ≤ 3 + p.length ∧ 255 ≤ k.maxPayload)

/-! ### Frame builder (41_tx_builder.md) -/

/-- R82: TX_BEGIN takes effect always, sets TX_SEQ when a frame was open, and changes nothing else. With
its encoding. -/
def Obligations.TxBeginOpensFrame : Prop :=
  ∀ (c : Byte) (s : State),
    (∀ w, decodeWord w = .ok (.txBegin c) ↔ w = 0x3000#16 ||| c.setWidth 16) ∧
    exec (.txBegin c) s = .next
      { s with
        err := { s.err with txSeq := s.err.txSeq || s.tx.active }
        tx := { active := true, bad := false, cmd := c, plen := 0x0000#16, buf := s.tx.buf } }

/-- R83: TX_DATA with no frame open only sets TX_SEQ; with room it stores the byte at TXBUF[TX_PLEN] and steps TX_PLEN;
with a full buffer it drops the byte, sets TX_BAD and TX_OVF. Nothing else changes in any case. With its
encoding. -/
def Obligations.TxDataAppendsOrFlags : Prop :=
  ∀ (p : Byte) (s : State),
    (∀ w, decodeWord w = .ok (.txData p) ↔ w = 0x4000#16 ||| p.setWidth 16) ∧
    (s.tx.active = false →
      exec (.txData p) s = .next { s with err := { s.err with txSeq := true } }) ∧
    (s.tx.active = true → s.tx.plen.toNat < s.params.maxPayload →
      ∃ t, exec (.txData p) s = .next t ∧
        t = { s with tx := { s.tx with plen := t.tx.plen, buf := t.tx.buf } } ∧
        t.tx.plen.toNat = s.tx.plen.toNat + 1 ∧ t.tx.buf.readByte s.tx.plen.toNat = some p ∧
        (∀ a, a ≠ s.tx.plen.toNat → t.tx.buf.readByte a = s.tx.buf.readByte a)) ∧
    (s.tx.active = true → s.params.maxPayload ≤ s.tx.plen.toNat →
      exec (.txData p) s = .next
        { s with err := { s.err with txOvf := true }, tx := { s.tx with bad := true } })

/-- R84: TX_END in its four cases, in the order of its checks: no frame open; the escaper busy; an overflowed frame
abandoned with CSUM as before; otherwise the frame built, its checksum left in CSUM, stuffed and emitted with only the
final byte marked, TX_CMD, TX_PLEN and TXBUF unchanged. With its encoding. `emitted` is the model's record (log 8); in a
state no run reaches, with TX_PLEN above 65532, the frame built is the model's choice (log 14). -/
def Obligations.TxEndSendsFrame : Prop :=
  ∀ s : State,
    (∀ w, decodeWord w = .ok .txEnd ↔ w = 0x5000#16) ∧
    (s.tx.active = false → exec .txEnd s = .next { s with err := { s.err with txSeq := true } }) ∧
    (s.tx.active = true → s.escBody = true →
      exec .txEnd s = .next { s with err := { s.err with escBusy := true } }) ∧
    (s.tx.active = true → s.escBody = false → s.tx.bad = true →
      exec .txEnd s = .next { s with tx := { s.tx with active := false, bad := false } }) ∧
    (s.tx.active = true → s.escBody = false → s.tx.bad = false →
      ∃ f q, f = buildInnerFrame s.tx.cmd (txPayload s) ∧
        q = (stuff f).dropLast.map (fun b => (⟨b, false⟩ : TxPair)) ++ [⟨0x02#8, true⟩] ∧
        exec .txEnd s = .next
          { s with
            csum := checksum (slice f 1 (f.length - 4))
            tx := { s.tx with active := false }
            txq := s.txq ++ q
            emitted := s.emitted ++ q })

/-- R85, R86, R90: the layout of the InnerFrame of a command and a payload of n ≤ 65532 bytes, byte by byte; the length
field is exact and is the frame's length less 4, the checksum field is the checksum of F[1..L−4], both little-endian. -/
def Obligations.InnerFrameLayout : Prop :=
  ∀ (c : Byte) (p : List Byte), p.length ≤ 65532 →
    ∃ f, f = buildInnerFrame c p ∧ f.length = 7 + p.length ∧
      f[0]? = some 0x01#8 ∧ f[1]? = some (BitVec.ofNat 8 ((f.length - 4) % 256)) ∧
      f[2]? = some (BitVec.ofNat 8 ((f.length - 4) / 256)) ∧ f[3]? = some c ∧
      (∀ i, i < p.length → f[4 + i]? = p[i]?) ∧
      f[f.length - 3]? = some (BitVec.ofNat 8 ((checksum (slice f 1 (f.length - 4))).toNat % 256)) ∧
      f[f.length - 2]? = some (BitVec.ofNat 8 ((checksum (slice f 1 (f.length - 4))).toNat / 256)) ∧
      f[f.length - 1]? = some 0x02#8 ∧
      (join16 (byteAt f 2) (byteAt f 1)).toNat = f.length - 4 ∧
      join16 (byteAt f (f.length - 2)) (byteAt f (f.length - 3)) = checksum (slice f 1 (f.length - 4))

/-- R91: the length bytes, and when they are reserved; a command without payload always has an escape pair on the wire. -/
def Obligations.ReservedLengthBytes : Prop :=
  ∀ (c : Byte) (p : List Byte), p.length ≤ 65532 →
    byteAt (buildInnerFrame c p) 1 = lo (BitVec.ofNat 16 (3 + p.length)) ∧
    byteAt (buildInnerFrame c p) 2 = hi (BitVec.ofNat 16 (3 + p.length)) ∧
    (isReserved (byteAt (buildInnerFrame c p) 1) = true ↔
      p.length % 256 = 254 ∨ p.length % 256 = 255 ∨ p.length % 256 = 0) ∧
    (isReserved (byteAt (buildInnerFrame c p) 2) = true ↔ 253 ≤ p.length ∧ p.length ≤ 1020) ∧
    (p = [] → ∃ rest, stuff (buildInnerFrame c p) = 0x01#8 :: 0x03#8 :: 0x06#8 :: rest)

/-- R92: TX_FRAME from a state with no frame open and the escaper idle sends exactly the stuffed InnerFrame when the
payload fits, and nothing (with TX_OVF) when it does not. -/
def Obligations.TxFrameSendsStuffedInnerFrame : Prop :=
  ∀ (c : Byte) (p : List Byte) (s : State), s.tx.active = false → s.escBody = false →
    (p.length ≤ s.params.maxPayload →
      ∃ t, execAll (pseudoTxFrame c p) s = .next t ∧
        t.txq = s.txq ++ pairs (stuff (buildInnerFrame c p)) ∧
        t.csum = checksum (slice (buildInnerFrame c p) 1 (p.length + 3)) ∧
        t.tx.active = false ∧ t.tx.bad = false ∧ t.tx.cmd = c ∧ t.tx.plen.toNat = p.length ∧
        txPayload t = p ∧ t.err = s.err ∧
        t = { s with csum := t.csum, tx := t.tx, txq := t.txq, emitted := t.emitted }) ∧
    (s.params.maxPayload < p.length →
      ∃ t, execAll (pseudoTxFrame c p) s = .next t ∧ t.txq = s.txq ∧ t.csum = s.csum ∧
        t.tx.active = false ∧ t.err.txOvf = true)

/-- R93: the TX path never reads RXBUF, CFG or any receive state, nor the results; the RX path never reads TX state; the
RX path writes no ERR flag. Changing what an operation may not read changes neither what it does to the rest nor the
changed part itself. So of all operations only the TX path's write ERR. -/
def Obligations.TxAndRxPathsAreIndependent : Prop :=
  (∀ (i : Instr) (s t : State) (u : Bool) (r : RxPath) (q : Result),
    ((∃ c, i = .txBegin c) ∨ (∃ p, i = .txData p) ∨ i = .txEnd) → exec i s = .next t →
      exec i { s with unstuffEn := u, rx := r, res := q } =
        .next { t with unstuffEn := u, rx := r, res := q }) ∧
    (∀ (i : Instr) (s t : State) (x : TxPath) (k : Word) (e : ErrFlags) (b : Bool) (q o : List TxPair),
      ((∃ d l, i = .rxByte d l) ∨ i = .rxAbort) → exec i s = .next t →
        t.err = s.err ∧
          exec i { s with tx := x, csum := k, err := e, escBody := b, txq := q, emitted := o } =
            .next { t with tx := x, csum := k, err := e, escBody := b, txq := q, emitted := o }) ∧
    (∀ (i : Instr) (s t : State), exec i s = .next t → t.err ≠ s.err →
      (∃ c, i = .txBegin c) ∨ (∃ p, i = .txData p) ∨ i = .txEnd)

/-! ### Escaper (42_escaper.md) -/

/-- R95: ESC_BYTE in its four cases; ESC_BODY and the emitted pairs are all that changes. With its encoding. `emitted` is
the model's record (log 8). -/
def Obligations.EscByteEmitsByPosition : Prop :=
  ∀ (d : Byte) (l : Bool) (s : State),
    (∀ w, decodeWord w = .ok (.escByte d l) ↔
      w = (if l = true then 0x6100#16 else 0x6000#16) ||| d.setWidth 16) ∧
    (s.escBody = false →
      exec (.escByte d l) s = .next
        { s with escBody := !l, txq := s.txq ++ [⟨d, l⟩], emitted := s.emitted ++ [⟨d, l⟩] }) ∧
    (s.escBody = true → l = true →
      exec (.escByte d l) s = .next
        { s with escBody := false, txq := s.txq ++ [⟨d, true⟩], emitted := s.emitted ++ [⟨d, true⟩] }) ∧
    (s.escBody = true → l = false → d ∈ [0x01#8, 0x02#8, 0x03#8] →
      exec (.escByte d l) s = .next
        { s with
          txq := s.txq ++ [⟨0x03#8, false⟩, ⟨d + 3#8, false⟩]
          emitted := s.emitted ++ [⟨0x03#8, false⟩, ⟨d + 3#8, false⟩] }) ∧
    (s.escBody = true → l = false → d ∉ [0x01#8, 0x02#8, 0x03#8] →
      exec (.escByte d l) s = .next
        { s with txq := s.txq ++ [⟨d, false⟩], emitted := s.emitted ++ [⟨d, false⟩] })

/-- R96, R97, R98: the first and the final byte of a frame are copied, each byte strictly inside is replaced by the escape
map; R100: a one-byte frame is itself, an empty one empty. -/
def Obligations.StuffEscapesInsideOnly : Prop :=
  (∀ (a z : Byte) (mid : List Byte),
    stuff (a :: mid ++ [z]) =
      a :: mid.flatMap (fun b =>
        if b = 0x01#8 then [0x03#8, 0x04#8] else if b = 0x02#8 then [0x03#8, 0x05#8]
        else if b = 0x03#8 then [0x03#8, 0x06#8] else [b]) ++ [z]) ∧
    (∀ b : Byte, stuff [b] = [b]) ∧ stuff [] = []

/-- R99: the output is as much longer as there are reserved bytes strictly inside the frame. -/
def Obligations.StuffOutputLength : Prop :=
  ∀ f : List Byte, 2 ≤ f.length →
    (stuff f).length = f.length + (slice f 1 (f.length - 2)).countP isReserved

/-- R101: ESC_FRAME of a frame leaves the pairs of stuff(f) on TXQ and the escaper idle; TX_END emits the same pairs for
its frame. `emitted` is the model's record (log 8); for the frame of a TX_PLEN above 65532 see log 14. -/
def Obligations.EscFrameEmitsStuffedFrame : Prop :=
  (∀ (f : List Byte) (s : State), f ≠ [] → s.escBody = false →
    execAll (pseudoEscFrame f) s = .next
      { s with txq := s.txq ++ pairs (stuff f), emitted := s.emitted ++ pairs (stuff f) }) ∧
    (∀ s : State, s.tx.active = true → s.tx.bad = false → s.escBody = false →
      ∃ t u, exec .txEnd s = .next t ∧
        execAll (pseudoEscFrame (buildInnerFrame s.tx.cmd (txPayload s))) s = .next u ∧ t.txq = u.txq)

/-- R102: between its first and last byte a stuffed InnerFrame holds no 0x01 and no 0x02, and each 0x03 is followed,
still inside, by 0x04, 0x05 or 0x06; its first byte is 0x01 and its last 0x02. For a payload over 65532 bytes, which has no
InnerFrame, the frame is the model's choice (log 14). -/
def Obligations.StuffedFrameHasNoRawMarkers : Prop :=
  ∀ (c : Byte) (p : List Byte), ∃ m : List Byte,
    stuff (buildInnerFrame c p) = 0x01#8 :: m ++ [0x02#8] ∧
      (∀ i, i < m.length →
        m[i]? ≠ some 0x01#8 ∧ m[i]? ≠ some 0x02#8 ∧
          (m[i]? = some 0x03#8 →
            m[i + 1]? = some 0x04#8 ∨ m[i + 1]? = some 0x05#8 ∨ m[i + 1]? = some 0x06#8))

/-- R103: stuff is the identity on a frame exactly when no byte strictly inside it is reserved. -/
def Obligations.StuffIsIdentityIff : Prop :=
  ∀ f : List Byte, 2 ≤ f.length →
    (stuff f = f ↔ ∀ i, 1 ≤ i → i + 2 ≤ f.length → ∀ b, f[i]? = some b → isReserved b = false)

/-! ### Receive path and descaper (43_rx_descaper.md) -/

/-- R106: Store writes one byte at RX_LEN and steps it, or with a full buffer drops the byte and sets RX_OVF; nothing
else of the receive path changes, and RX_LEN does not pass the capacity. -/
def Obligations.StoreAppendsOrOverflows : Prop :=
  ∀ (v : Byte) (cap : Nat) (p : RxPath), cap ≤ 65535 →
    (p.len.toNat < cap →
      ∃ q, store cap v p = q ∧ q = { p with len := q.len, buf := q.buf } ∧
        q.len.toNat = p.len.toNat + 1 ∧ q.len.toNat ≤ cap ∧ q.buf.readByte p.len.toNat = some v ∧
        (∀ a, a ≠ p.len.toNat → q.buf.readByte a = p.buf.readByte a)) ∧
    (cap ≤ p.len.toNat → store cap v p = { p with ovf := true })

/-- R105, R110, first branch: byte 0 of a frame latches RX_MODE, clears the frame's state, is stored verbatim at index 0,
and completes the frame at once when it is also the last. Only the receive path and the results change. -/
def Obligations.RxFirstByteStartsFrame : Prop :=
  ∀ (d : Byte) (l : Bool) (s : State), s.rx.body = false →
    ∃ t, exec (.rxByte d l) s = .next t ∧
      t.rx.body = !l ∧ t.rx.mode = s.unstuffEn ∧ t.rx.len = 1#16 ∧ t.rx.dscEsc = false ∧
      t.rx.dscErr = false ∧ t.rx.ovf = false ∧ t.rx.buf.readByte 0 = some d ∧
      (∀ a, a ≠ 0 → t.rx.buf.readByte a = s.rx.buf.readByte a) ∧
      (l = false → t = { s with rx := t.rx }) ∧ (l = true → t = complete { s with rx := t.rx })

/-- R105, R112, second branch: the final byte of a longer frame: a pending escape prefix in RX_MODE 1 is an error, the
byte is stored verbatim, RX_BODY returns to 0 and the frame completes. -/
def Obligations.RxFinalByteCompletesFrame : Prop :=
  ∀ (d : Byte) (s : State), s.rx.body = true →
    ∃ p q, p = { s.rx with
          dscErr := if s.rx.mode = true ∧ s.rx.dscEsc = true then true else s.rx.dscErr
          dscEsc := false } ∧
      q = { store s.params.maxRx d p with body := false } ∧
      exec (.rxByte d true) s = .next (complete { s with rx := q })

/-- R105, R111, R113, the last four branches: a byte strictly inside a frame; the results do not change. -/
def Obligations.RxInnerByteStoresOrDescapes : Prop :=
  ∀ (d : Byte) (s : State), s.rx.body = true →
    ∃ q, exec (.rxByte d false) s = .next { s with rx := q } ∧
      (s.rx.mode = false → q = store s.params.maxRx d s.rx) ∧
      (s.rx.mode = true → s.rx.dscEsc = true →
        q = { store s.params.maxRx (BitVec.ofNat 8 ((d.toNat + 253) % 256)) s.rx with
              dscErr := if d ∈ [0x04#8, 0x05#8, 0x06#8] then s.rx.dscErr else true
              dscEsc := false }) ∧
      (s.rx.mode = true → s.rx.dscEsc = false → d = 0x03#8 → q = { s.rx with dscEsc := true }) ∧
      (s.rx.mode = true → s.rx.dscEsc = false → d ≠ 0x03#8 → q = store s.params.maxRx d s.rx)

/-- R107: RX_ABORT discards a partly received frame; RX_MODE, RXBUF and the results are unchanged. With its
encoding. -/
def Obligations.RxAbortDiscardsFrame : Prop :=
  (∀ w, decodeWord w = .ok .rxAbort ↔ w = 0x8000#16) ∧ ∀ s : State, exec .rxAbort s = .next
    { s with rx := { s.rx with
        body := false, len := 0x0000#16, dscEsc := false, dscErr := false, ovf := false } }

/-- R110, R143: byte 0 of every frame latches RX_MODE from UNSTUFF_EN, and nothing else changes it; inside a frame
RX_BYTE does the same whatever UNSTUFF_EN holds, so a CFG_WR changes only the next frame. -/
def Obligations.RxModeIsLatchedAtByteZero : Prop :=
  (∀ (d : Byte) (l : Bool) (s : State), s.rx.body = false →
    ∃ t, exec (.rxByte d l) s = .next t ∧ t.rx.mode = s.unstuffEn) ∧
    (∀ (i : Instr) (s t : State), (s.rx.body = true ∨ ∀ d l, i ≠ .rxByte d l) → exec i s = .next t →
      t.rx.mode = s.rx.mode) ∧
    (∀ (d : Byte) (l b : Bool) (s t : State), s.rx.body = true → exec (.rxByte d l) s = .next t →
      exec (.rxByte d l) { s with unstuffEn := b } = .next { t with unstuffEn := b })

/-- R109: unstuff is the inverse of stuff on every nonempty frame; the converse does not hold: raw 0x01 and 0x02 inside
pass without error though stuff would escape them, and an ill-formed pair is reported and still decoded. -/
def Obligations.UnstuffInvertsStuff : Prop :=
  (∀ f : List Byte, f ≠ [] → unstuff (stuff f) = (f, false)) ∧
    (∃ r : List Byte, r ≠ [] ∧ (unstuff r).2 = false ∧ stuff (unstuff r).1 ≠ r) ∧
    (∀ a z b : Byte, b ∈ [0x01#8, 0x02#8] →
      unstuff [a, b, z] = ([a, b, z], false) ∧ stuff [a, b, z] = [a, 0x03#8, b + 3#8, z]) ∧
    (∀ a z d : Byte, d ∉ [0x04#8, 0x05#8, 0x06#8] → unstuff [a, 0x03#8, d, z] = ([a, d - 3#8, z], true))

/-- R108: RX_FRAME of the received bytes, without overflow, leaves rxframe's list in RXBUF[0..RX_LEN−1] and its error
bit in DSC_ERR, and only the receive path and the results have changed. -/
def Obligations.RxFrameStoresDescapedFrame : Prop :=
  ∀ (r : List Byte) (s : State), r ≠ [] → s.rx.body = false →
    (rxframeOf r s.unstuffEn).1.length ≤ s.params.maxRx →
      ∃ t, execAll (pseudoRxFrame r) s = .next t ∧ rxFrame t = (rxframeOf r s.unstuffEn).1 ∧
        t.rx.dscErr = (rxframeOf r s.unstuffEn).2 ∧ t.rx.body = false ∧ t.rx.ovf = false ∧
        t.rx.mode = s.unstuffEn ∧ t = { s with rx := t.rx, res := t.res }

/-- R106, R121, R128: a frame longer than RXBUF completes as invalid with RX_OVERFLOW, RXBUF holding its first MAX_RX
bytes. -/
def Obligations.OverlongFrameIsOverflow : Prop :=
  ∀ (r : List Byte) (s : State), s.rx.body = false →
    s.params.maxRx < (rxframeOf r s.unstuffEn).1.length →
      ∃ t, execAll (pseudoRxFrame r) s = .next t ∧ t.rx.ovf = true ∧
        rxFrame t = (rxframeOf r s.unstuffEn).1.take s.params.maxRx ∧
        t.res.done = true ∧ t.res.valid = false ∧ t.res.reason = .rxOverflow ∧ t.res.kind = .none

/-- R116: a frame with no 0x03 strictly inside is the same frame in both modes, without error. For the empty list, which is
no received frame, that rests on the model's choice of log 13. -/
def Obligations.NoEscapeByteSameInBothModes : Prop :=
  ∀ r : List Byte, (∀ i, 1 ≤ i → i + 2 ≤ r.length → r[i]? ≠ some 0x03#8) →
    rxframeOf r true = rxframeOf r false

/-! ### Validator (44_validator.md) -/

/-- R123 with the checks of R122; a valid frame has at least 7 bytes (R126). -/
def Obligations.ValidFramesMeetTheFiveChecks : Prop :=
  ∀ f : List Byte,
    (isValid f = true ↔
      6 ≤ f.length ∧ f[0]? = some 0x01#8 ∧ f[f.length - 1]? = some 0x02#8 ∧ f[3]? = some 0x04#8 ∧
        f[5]? = some 0x55#8) ∧
    (isValid f = true → 7 ≤ f.length)

/-- R121, R122: the first failing check is the REASON of a completed frame, in the order RX_OVERFLOW, ESC_ERROR, SHORT,
BAD_STX, BAD_ETX, BAD_CLASS, BAD_STATUS; a frame that passes all is valid; an invalid one has no result. -/
def Obligations.ReasonIsTheFirstFailedCheck : Prop :=
  ∀ (d : Byte) (s : State), ∃ t f, exec (.rxByte d true) s = .next t ∧ f = rxFrame t ∧
    (t.rx.ovf = true → t.res.reason = .rxOverflow) ∧
    (t.rx.ovf = false → t.rx.dscErr = true → t.res.reason = .escError) ∧
    (t.rx.ovf = false → t.rx.dscErr = false →
      (f.length < 6 → t.res.reason = .short) ∧
      (6 ≤ f.length → f[0]? ≠ some 0x01#8 → t.res.reason = .badStx) ∧
      (6 ≤ f.length → f[0]? = some 0x01#8 → f[f.length - 1]? ≠ some 0x02#8 → t.res.reason = .badEtx) ∧
      (6 ≤ f.length → f[0]? = some 0x01#8 → f[f.length - 1]? = some 0x02#8 → f[3]? ≠ some 0x04#8 →
        t.res.reason = .badClass) ∧
      (6 ≤ f.length → f[0]? = some 0x01#8 → f[f.length - 1]? = some 0x02#8 → f[3]? = some 0x04#8 →
        f[5]? ≠ some 0x55#8 → t.res.reason = .badStatus) ∧
      (6 ≤ f.length → f[0]? = some 0x01#8 → f[f.length - 1]? = some 0x02#8 → f[3]? = some 0x04#8 →
        f[5]? = some 0x55#8 → t.res.valid = true ∧ (t.res.reason = .ok ∨ t.res.reason = .payloadShort))) ∧
    (t.res.valid = false → t.res.kind = .none)

/-- R120, R123, R124: every completion writes every result register, from the stored frame alone: whatever the results
were, they become those of R120 for that frame (REASON as checked or, of a valid frame, all as decoded). DONE is set,
VALID = is_valid of the stored frame and no overflow and no escape error, the two header fields are parsed, the fields
of an invalid frame cleared, no ERR flag set. Only RX_BYTE with L = 1 completes a frame. -/
def Obligations.CompletionWritesEveryResult : Prop :=
  (∀ (d : Byte) (s : State), ∃ t f, exec (.rxByte d true) s = .next t ∧ f = rxFrame t ∧
    t.res = completedResult s.params t.rx.ovf t.rx.dscErr f f.length ∧
    (t.res.valid = false → t.res.reason = checkFrame t.rx.ovf t.rx.dscErr f f.length) ∧
    (t.res.valid = true →
      t.res = decodeFrame s.params f f.length
        { done := true, valid := true, reason := .ok, kind := .none, cmd := t.res.cmd, lenf := t.res.lenf,
          level := 0#8, hour := 0#8, minute := 0#8, scene := 0#8, enabled := false, rawOff := 0#16,
          rawLen := 0#16 }) ∧
    (∀ q : Result, exec (.rxByte d true) { s with res := q } = .next t) ∧
    t.err = s.err ∧ t.res.done = true ∧
    (t.res.valid = true ↔ isValid f = true ∧ t.rx.ovf = false ∧ t.rx.dscErr = false) ∧
    (3 ≤ f.length → f[1]? = some (lo t.res.lenf) ∧ f[2]? = some (hi t.res.lenf)) ∧
    (f.length < 3 → t.res.lenf = 0#16) ∧
    (5 ≤ f.length → f[4]? = some t.res.cmd) ∧ (f.length < 5 → t.res.cmd = 0#8) ∧
    (t.res.valid = false →
      t.res.kind = .none ∧ t.res.level = 0#8 ∧ t.res.hour = 0#8 ∧ t.res.minute = 0#8 ∧ t.res.scene = 0#8 ∧
        t.res.enabled = false ∧ t.res.rawOff = 0#16 ∧ t.res.rawLen = 0#16)) ∧
    (∀ (i : Instr) (s t : State), exec i s = .next t → t.res ≠ s.res → ∃ d, i = .rxByte d true)

/-! ### Payload decoder (45_decoder.md) -/

/-- R132, R133, R134: on a valid frame whose F[4] is the voltage-read ID, or the light-level-read ID and not the other,
the level is F[6] when N ≥ 8 and PAYLOAD_SHORT with no result when N = 7. -/
def Obligations.LevelRepliesDecode : Prop :=
  ∀ (d : Byte) (s : State), ∃ t f, exec (.rxByte d true) s = .next t ∧ f = rxFrame t ∧
    (t.res.valid = true →
      ∀ k, ((f[4]? = some s.params.voltageRead ∧ k = Kind.voltage) ∨
          (f[4]? = some s.params.lightlevelRead ∧ s.params.lightlevelRead ≠ s.params.voltageRead ∧
            k = Kind.lightlevel)) →
        (8 ≤ f.length → ∃ v, f[6]? = some v ∧ t.res.reason = .ok ∧ t.res.kind = k ∧ t.res.level = v) ∧
        (f.length < 8 → t.res.reason = .payloadShort ∧ t.res.kind = .none ∧ t.res.level = 0#8) ∧
        t.res.hour = 0#8 ∧ t.res.minute = 0#8 ∧ t.res.scene = 0#8 ∧ t.res.enabled = false ∧
        t.res.rawOff = 0#16 ∧ t.res.rawLen = 0#16)

/-- R132, R135: on a valid frame whose F[4] is the alarm-read ID and neither level ID, hour, minute, scene and enable are
F[6..9] when N ≥ 11 and PAYLOAD_SHORT with no result below. -/
def Obligations.AlarmRepliesDecode : Prop :=
  ∀ (d : Byte) (s : State), ∃ t f, exec (.rxByte d true) s = .next t ∧ f = rxFrame t ∧
    (t.res.valid = true → f[4]? = some s.params.alarmRead → s.params.alarmRead ≠ s.params.voltageRead →
      s.params.alarmRead ≠ s.params.lightlevelRead →
        (11 ≤ f.length →
          t.res.reason = .ok ∧ t.res.kind = .alarm ∧ f[6]? = some t.res.hour ∧ f[7]? = some t.res.minute ∧
            f[8]? = some t.res.scene ∧ (t.res.enabled = true ↔ f[9]? ≠ some 0x00#8)) ∧
        (f.length < 11 →
          t.res.reason = .payloadShort ∧ t.res.kind = .none ∧ t.res.hour = 0#8 ∧ t.res.minute = 0#8 ∧
            t.res.scene = 0#8 ∧ t.res.enabled = false) ∧
        t.res.level = 0#8 ∧ t.res.rawOff = 0#16 ∧ t.res.rawLen = 0#16)

/-- R136, R137: on a valid frame of any other command the payload is named raw, offset 6 and length N − 7, an empty slice
included; COLOR_RAW for the color-read ID, RAW for every ID that no parameter names. -/
def Obligations.RawRepliesDecode : Prop :=
  ∀ (d : Byte) (s : State), ∃ t f, exec (.rxByte d true) s = .next t ∧ f = rxFrame t ∧
    (t.res.valid = true → f[4]? ≠ some s.params.voltageRead → f[4]? ≠ some s.params.lightlevelRead →
      f[4]? ≠ some s.params.alarmRead →
        t.res.reason = .ok ∧
        t.res.kind = (if f[4]? = some s.params.colorRead then .colorRaw else .raw) ∧
        t.res.rawOff = 6#16 ∧ t.res.rawLen.toNat = f.length - 7 ∧ rawSlice t = slice f 6 (f.length - 2) ∧
        t.res.level = 0#8 ∧ t.res.hour = 0#8 ∧ t.res.minute = 0#8 ∧ t.res.scene = 0#8 ∧ t.res.enabled = false)

/-- R138, R139: RX_FRAME of a reply that fits leaves in the result registers exactly the source's decode of the received
frame: of the bytes themselves in RX_MODE 0, of the descaped bytes in RX_MODE 1, and none when the escapes were ill-formed. -/
def Obligations.RxFrameRefinesDecode : Prop :=
  ∀ (r : List Byte) (s : State), r ≠ [] → s.rx.body = false →
    (rxframeOf r s.unstuffEn).1.length ≤ s.params.maxRx →
      ∃ t, execAll (pseudoRxFrame r) s = .next t ∧
        decodedResult t =
          (if (rxframeOf r s.unstuffEn).2 = true then none
           else decode s.params (rxframeOf r s.unstuffEn).1) ∧
        (s.unstuffEn = false → (t.res.kind = .none ↔ decode s.params r = none))

/-! ### Control (46_control.md) -/

/-- R140: NOP changes nothing, and its word is 0x0000 only. -/
def Obligations.NopChangesNothing : Prop :=
  (∀ w, decodeWord w = .ok .nop ↔ w = 0x0000#16) ∧ ∀ s : State, exec .nop s = .next s

/-- R141: CFG_WR writes UNSTUFF_EN and nothing else; the new value is the RX_MODE of the next frame. With its
encoding. -/
def Obligations.CfgWrSelectsReceiveBehaviour : Prop :=
  ∀ (b : Bool) (s : State),
    (∀ w, decodeWord w = .ok (.cfgWr b) ↔ w = if b = true then 0x9001#16 else 0x9000#16) ∧
    (s.rx.body = false → ∀ d l, ∃ t, execAll [.cfgWr b, .rxByte d l] s = .next t ∧ t.rx.mode = b) ∧
    exec (.cfgWr b) s = .next { s with unstuffEn := b }

/-! ### Errors and frames (10_state.md R44, R45; 60_exceptions.md) -/

/-- R145: each flag of ERR is set exactly by its causes, and nothing clears a flag but reset. That a step
without an event clears none either is the model's reading (log 2). -/
def Obligations.ErrFlagsRecordTheirCauses : Prop :=
  (∀ (s t : State) (w : Word) (rest : List HostEvent), s.inbox = .op w :: rest → step s = .next t →
    (t.err.illegal = true ↔ s.err.illegal = true ∨ ∃ r, decodeWord w = .error r) ∧
    (t.err.txSeq = true ↔ s.err.txSeq = true ∨
      (s.tx.active = false ∧ (∃ p, decodeWord w = .ok (.txData p))) ∨
      (s.tx.active = false ∧ decodeWord w = .ok .txEnd) ∨
      (s.tx.active = true ∧ (∃ c, decodeWord w = .ok (.txBegin c)))) ∧
    (t.err.txOvf = true ↔ s.err.txOvf = true ∨
      (s.tx.active = true ∧ s.params.maxPayload ≤ s.tx.plen.toNat ∧ (∃ p, decodeWord w = .ok (.txData p)))) ∧
    (t.err.escBusy = true ↔ s.err.escBusy = true ∨
      (s.tx.active = true ∧ s.escBody = true ∧ decodeWord w = .ok .txEnd))) ∧
    (∀ (s t : State) (x : ErrFlag), step s = .next t → s.inbox.head? ≠ some .rst →
      s.err.get x = true → t.err.get x = true)

/-- R150: one word sets at most one ERR flag, and a legal word other than TX_BEGIN, TX_DATA and TX_END sets none. -/
def Obligations.OneWordSetsAtMostOneFlag : Prop :=
  ∀ (s t : State) (w : Word) (rest : List HostEvent), s.inbox = .op w :: rest → step s = .next t →
    (∀ x y, s.err.get x = false → t.err.get x = true → s.err.get y = false → t.err.get y = true → x = y) ∧
    (t.err ≠ s.err →
      (∃ r, decodeWord w = .error r) ∨ (∃ c, decodeWord w = .ok (.txBegin c)) ∨
        (∃ p, decodeWord w = .ok (.txData p)) ∨ decodeWord w = .ok .txEnd)

/-- R28–R42, R44, R45: what each operation leaves unchanged: every state element is written only by the operations its
rule names. -/
def Obligations.EachElementHasItsWriters : Prop :=
  ∀ (i : Instr) (s t : State), exec i s = .next t →
    t.params = s.params ∧ t.inbox = s.inbox ∧
    ((∀ b, i ≠ .cfgWr b) → t.unstuffEn = s.unstuffEn) ∧
    ((∀ c, i ≠ .txBegin c) → (∀ p, i ≠ .txData p) → i ≠ .txEnd → t.err = s.err ∧ t.tx = s.tx) ∧
    t.err.illegal = s.err.illegal ∧ ((∀ p, i ≠ .txData p) → t.err.txOvf = s.err.txOvf) ∧
    (i ≠ .txEnd → t.err.escBusy = s.err.escBusy) ∧
    ((∀ c, i ≠ .txBegin c) → i ≠ .txEnd → t.tx.active = s.tx.active) ∧
    ((∀ p, i ≠ .txData p) → t.tx.buf = s.tx.buf) ∧
    (i ≠ .csumClr → (∀ d, i ≠ .csumAdd d) → i ≠ .txEnd → t.csum = s.csum) ∧
    ((∀ c, i ≠ .txBegin c) → t.tx.cmd = s.tx.cmd) ∧
    ((∀ c, i ≠ .txBegin c) → (∀ p, i ≠ .txData p) → t.tx.plen = s.tx.plen) ∧
    ((∀ d l, i ≠ .escByte d l) → t.escBody = s.escBody) ∧
    ((∀ d l, i ≠ .rxByte d l) → i ≠ .rxAbort → t.rx = s.rx) ∧
    ((∀ d l, i ≠ .rxByte d l) → t.rx.buf = s.rx.buf) ∧
    ((s.rx.body = true ∨ ∀ d l, i ≠ .rxByte d l) → t.rx.mode = s.rx.mode) ∧
    ((∀ d, i ≠ .rxByte d true) → t.res = s.res) ∧
    ((∀ d l, i ≠ .escByte d l) → i ≠ .txEnd → t.txq = s.txq ∧ t.emitted = s.emitted)

/-- R33, R38, R55: the bytes of the buffers: TX_DATA alone writes TXBUF, at TX_PLEN and below MAX_PAYLOAD; RX_BYTE alone
writes RXBUF, at the index it stores to (0 at a frame start, else RX_LEN) and below MAX_RX; every other byte is unchanged. -/
def Obligations.BufferWritesStayInPlace : Prop :=
  ∀ (i : Instr) (s t : State), exec i s = .next t → ∀ a : Nat,
    (t.tx.buf.readByte a ≠ s.tx.buf.readByte a →
      (∃ p, i = .txData p) ∧ a = s.tx.plen.toNat ∧ a < s.params.maxPayload) ∧
    (t.rx.buf.readByte a ≠ s.rx.buf.readByte a →
      (∃ d l, i = .rxByte d l) ∧ a = rxStoreIndex s ∧ a < s.params.maxRx)

/-- R165: the pairs of one TransmitFrame are never interleaved with those of another: what a word emits continues the open
frame of the escaper or is a whole frame that starts with none open; ESC_BODY = 1 exactly while the latest pair emitted
leaves its frame open. `emitted` is the model's record (log 8). -/
def Obligations.TransmitFramesAreNotInterleaved : Prop :=
  ∀ (i : Instr) (s t : State), exec i s = .next t →
    ∃ new, t.txq = s.txq ++ new ∧ t.emitted = s.emitted ++ new ∧
      (new = [] → t.escBody = s.escBody) ∧
      (∀ p, new.getLast? = some p → t.escBody = !p.last) ∧
      (∀ p ∈ new.dropLast, p.last = false) ∧
      (i = .txEnd → new ≠ [] → s.escBody = false)

/-- R166: the results hold until the next RX_BYTE with L = 1 or reset; after a reply, RXBUF and RX_LEN hold until the next
RX_BYTE that starts a frame, or RX_ABORT, or reset. That a step without an event keeps both is the model's reading (log 2). -/
def Obligations.ResultsHoldUntilNextCompletion : Prop :=
  ∀ s t : State, step s = .next t → s.inbox.head? ≠ some .rst →
    ((∀ w d, s.inbox.head? = some (.op w) → decodeWord w ≠ .ok (.rxByte d true)) → t.res = s.res) ∧
    (s.rx.body = false →
      (∀ w d l, s.inbox.head? = some (.op w) →
        decodeWord w ≠ .ok (.rxByte d l) ∧ decodeWord w ≠ .ok .rxAbort) →
      t.rx = s.rx)

/-! ### Read ports (10_state.md R24, R25, R43) -/

/-- R43: the register map, each register as the number its bits make; every index from 0x15 reads 0x0000. REASON and
KIND read as the code numbers of R128 and R130, written out. -/
def Obligations.RegisterMap : Prop :=
  ∀ s : State,
    (readReg s 0x00#5).toNat = s.unstuffEn.toNat ∧
    (readReg s 0x01#5).toNat =
      s.err.illegal.toNat + 2 * s.err.txSeq.toNat + 4 * s.err.txOvf.toNat + 8 * s.err.escBusy.toNat ∧
    readReg s 0x02#5 = s.csum ∧
    (readReg s 0x03#5).toNat = s.tx.active.toNat + 2 * s.tx.bad.toNat ∧
    (readReg s 0x04#5).toNat = s.tx.cmd.toNat ∧ readReg s 0x05#5 = s.tx.plen ∧
    (readReg s 0x06#5).toNat = s.escBody.toNat ∧
    (readReg s 0x07#5).toNat =
      s.rx.body.toNat + 2 * s.rx.mode.toNat + 4 * s.rx.dscEsc.toNat + 8 * s.rx.dscErr.toNat +
        16 * s.rx.ovf.toNat ∧
    readReg s 0x08#5 = s.rx.len ∧
    (readReg s 0x09#5).toNat = s.res.done.toNat + 2 * s.res.valid.toNat ∧
    (readReg s 0x0A#5).toNat = s.res.reason.code.toNat ∧ (readReg s 0x0B#5).toNat = s.res.kind.code.toNat ∧
    (s.res.reason, readReg s 0x0A#5) ∈
      [(.ok, 0#16), (.short, 1#16), (.badStx, 2#16), (.badEtx, 3#16), (.badClass, 4#16), (.badStatus, 5#16),
        (.rxOverflow, 6#16), (.escError, 7#16), (.payloadShort, 8#16)] ∧
    (s.res.kind, readReg s 0x0B#5) ∈
      [(.none, 0#16), (.lightlevel, 1#16), (.voltage, 2#16), (.alarm, 3#16), (.colorRaw, 4#16), (.raw, 5#16)] ∧
    (readReg s 0x0C#5).toNat = s.res.cmd.toNat ∧ readReg s 0x0D#5 = s.res.lenf ∧
    (readReg s 0x0E#5).toNat = s.res.level.toNat ∧ (readReg s 0x0F#5).toNat = s.res.hour.toNat ∧
    (readReg s 0x10#5).toNat = s.res.minute.toNat ∧ (readReg s 0x11#5).toNat = s.res.scene.toNat ∧
    (readReg s 0x12#5).toNat = s.res.enabled.toNat ∧ readReg s 0x13#5 = s.res.rawOff ∧
    readReg s 0x14#5 = s.res.rawLen ∧
    (∀ n : BitVec 5, 0x15 ≤ n.toNat → readReg s n = 0x0000#16)

/-- R25: below RX_LEN (TX_PLEN) a buffer port reads the byte at the index whatever is drawn; elsewhere it may read any
byte. The draw as an argument is the model's choice (log 7). -/
def Obligations.BufferPortsReadOrDraw : Prop :=
  ∀ (s : State) (sel : Word),
    (sel.toNat < s.rx.len.toNat → ∀ draw, some (rxbufRd s sel draw) = (rxFrame s)[sel.toNat]?) ∧
    (s.rx.len.toNat ≤ sel.toNat → ∀ b, ∃ draw, rxbufRd s sel draw = b) ∧
    (sel.toNat < s.tx.plen.toNat → ∀ draw, some (txbufRd s sel draw) = (txPayload s)[sel.toNat]?) ∧
    (s.tx.plen.toNat ≤ sel.toNat → ∀ b, ∃ draw, txbufRd s sel draw = b)

/-! ### Whole-machine statements -/

/-- The invariant at reset. -/
def Obligations.ResetMeetsInvariant : Prop := State.reset.Inv

/-- From every state that meets the invariant a step gives one that meets it: TX_PLEN ≤ MAX_PAYLOAD, RX_LEN ≤ MAX_RX,
buffers canonical and inside their capacities with every meaningful byte written, TX_BAD, DSC_ESC, DSC_ERR and RX_OVF only
where their rules put them, VALID, REASON, KIND and the fields consistent, TXQ the latest pairs emitted. The canonical
form is the model's (log 6), and so is the record of emitted pairs (log 8). -/
def Obligations.StepKeepsInvariant : Prop :=
  ∀ s t : State, s.Inv → step s = .next t → t.Inv

/-- R33, R38, R160 (its derived part): no operation and no observation depends on a buffer byte at or above TX_PLEN or
RX_LEN: two states that differ only there are observed alike and step to two states that differ only there. What an index without
a byte of its own reads as is the model's choice (log 6); the statement holds for every such value. -/
def Obligations.UnspecifiedBytesAreNeverRead : Prop :=
  ∀ s t : State, SameMeaning s t →
    s.observe = t.observe ∧
      (∃ s' t', step s = .next s' ∧ step t = .next t' ∧ SameMeaning s' t')
end

