-- ==== Sys2Proof/Laws/Memory.lean ====
section
/-! SUPPORT. Sys2Proof/Laws/Memory.lean: read after write, and that a write keeps the canonical form, the capacity and
the written prefix of a buffer. -/

namespace Sys2Proof.Machine

@[simp] theorem readByte_nil (i : Nat) : Memory.readByte [] i = none := rfl

theorem readByte_cons (a : Nat) (b : Byte) (m : Memory) (i : Nat) :
    Memory.readByte ((a, b) :: m) i = if a = i then some b else Memory.readByte m i := rfl

@[simp] theorem readByte_writeByte_self (m : Memory) (i : Nat) (v : Byte) :
    (m.writeByte i v).readByte i = some v := by
  induction m with
  | nil => simp [Memory.writeByte, readByte_cons]
  | cons c m ih =>
    obtain ⟨a, b⟩ := c
    rw [Memory.writeByte]
    split
    · simp [readByte_cons]
    · split
      · simp [readByte_cons]
      · next h => rw [readByte_cons, if_neg (fun e => h e.symm)]; exact ih

theorem readByte_writeByte_of_ne (m : Memory) (i j : Nat) (v : Byte) (h : j ≠ i) :
    (m.writeByte i v).readByte j = m.readByte j := by
  induction m with
  | nil => simp [Memory.writeByte, readByte_cons, h.symm]
  | cons c m ih =>
    obtain ⟨a, b⟩ := c
    rw [Memory.writeByte]
    split
    · simp [readByte_cons, h.symm]
    · split
      · next ha => subst ha; simp [readByte_cons, h.symm]
      · simp [readByte_cons, ih]

/-- The addresses of a buffer strictly rise, said as a list property. -/
theorem wf_iff_pairwise (m : Memory) : m.wf = true ↔ m.Pairwise (fun c d => c.1 < d.1) := by
  induction m with
  | nil => simp [Memory.wf]
  | cons c m ih =>
    obtain ⟨a, x⟩ := c
    cases m with
    | nil => simp [Memory.wf]
    | cons d m =>
      obtain ⟨b, y⟩ := d
      simp only [Memory.wf, Bool.and_eq_true, decide_eq_true_eq, ih, List.pairwise_cons]
      constructor
      · rintro ⟨hab, hb, hm⟩
        refine ⟨?_, hb, hm⟩
        intro e he
        rcases List.mem_cons.mp he with rfl | he
        · exact hab
        · exact Nat.lt_trans hab (hb e he)
      · rintro ⟨ha, hb, hm⟩
        exact ⟨ha (b, y) (by simp), hb, hm⟩

theorem mem_writeByte (m : Memory) (i : Nat) (v : Byte) (c : Host.Cell) (h : c ∈ m.writeByte i v) :
    c = (i, v) ∨ c ∈ m := by
  induction m with
  | nil => simpa [Memory.writeByte] using h
  | cons d m ih =>
    obtain ⟨a, b⟩ := d
    rw [Memory.writeByte] at h
    split at h
    · simpa using h
    · split at h
      · rcases List.mem_cons.mp h with h | h
        · exact .inl h
        · exact .inr (List.mem_cons_of_mem _ h)
      · rcases List.mem_cons.mp h with h | h
        · exact .inr (by simp [h])
        · rcases ih h with h | h
          · exact .inl h
          · exact .inr (List.mem_cons_of_mem _ h)

/-- A write keeps the canonical form. -/
theorem wf_writeByte (m : Memory) (i : Nat) (v : Byte) (h : m.wf = true) : (m.writeByte i v).wf = true := by
  rw [wf_iff_pairwise] at h ⊢
  induction m with
  | nil => simp [Memory.writeByte]
  | cons d m ih =>
    obtain ⟨a, b⟩ := d
    obtain ⟨ha, hm⟩ := List.pairwise_cons.mp h
    rw [Memory.writeByte]
    split
    · next hia =>
      refine List.pairwise_cons.mpr ⟨?_, h⟩
      intro e he
      rcases List.mem_cons.mp he with rfl | he
      · exact hia
      · exact Nat.lt_trans hia (ha e he)
    · split
      · next hia => subst hia; exact List.pairwise_cons.mpr ⟨ha, hm⟩
      · next h1 h2 =>
        refine List.pairwise_cons.mpr ⟨?_, ih hm⟩
        intro e he
        rcases mem_writeByte m i v e he with rfl | he
        · show a < i
          omega
        · exact ha e he

/-- A write inside the capacity keeps a buffer inside it. -/
theorem within_writeByte (m : Memory) (i : Nat) (v : Byte) (cap : Nat) (h : m.Within cap) (hi : i < cap) :
    (m.writeByte i v).Within cap := by
  intro c hc
  rcases mem_writeByte m i v c hc with rfl | hc
  · exact hi
  · exact h c hc

/-- A write at the end of the written prefix extends it by one. -/
theorem filled_writeByte (m : Memory) (n : Nat) (v : Byte) (h : m.Filled n) : (m.writeByte n v).Filled (n + 1) := by
  intro i hi
  by_cases hin : i = n
  · subst hin; simp
  · rw [readByte_writeByte_of_ne m n i v hin]; exact h i (by omega)

theorem filled_zero (m : Memory) : m.Filled 0 := fun _ h => absurd h (Nat.not_lt_zero _)

/-- Reset memory is canonical. -/
theorem reset_buffers_wf : State.reset.tx.buf.wf = true ∧ State.reset.rx.buf.wf = true := ⟨rfl, rfl⟩

end Sys2Proof.Machine
end

