-- ==== Sys2Proof/Laws/State.lean ====
section
/-! SUPPORT. Sys2Proof/Laws/State.lean: one lemma per field per named update, so that no later proof unfolds a record
update. -/

namespace Sys2Proof.Machine

variable (s : State)

/-! ### withInbox -/

@[simp] theorem withInbox_params (q : List HostEvent) : (s.withInbox q).params = s.params := rfl
@[simp] theorem withInbox_inbox (q : List HostEvent) : (s.withInbox q).inbox = q := rfl
@[simp] theorem withInbox_unstuffEn (q : List HostEvent) : (s.withInbox q).unstuffEn = s.unstuffEn := rfl
@[simp] theorem withInbox_err (q : List HostEvent) : (s.withInbox q).err = s.err := rfl
@[simp] theorem withInbox_csum (q : List HostEvent) : (s.withInbox q).csum = s.csum := rfl
@[simp] theorem withInbox_tx (q : List HostEvent) : (s.withInbox q).tx = s.tx := rfl
@[simp] theorem withInbox_escBody (q : List HostEvent) : (s.withInbox q).escBody = s.escBody := rfl
@[simp] theorem withInbox_rx (q : List HostEvent) : (s.withInbox q).rx = s.rx := rfl
@[simp] theorem withInbox_res (q : List HostEvent) : (s.withInbox q).res = s.res := rfl
@[simp] theorem withInbox_txq (q : List HostEvent) : (s.withInbox q).txq = s.txq := rfl
@[simp] theorem withInbox_emitted (q : List HostEvent) : (s.withInbox q).emitted = s.emitted := rfl

/-! ### withUnstuffEn -/

@[simp] theorem withUnstuffEn_params (b : Bool) : (s.withUnstuffEn b).params = s.params := rfl
@[simp] theorem withUnstuffEn_inbox (b : Bool) : (s.withUnstuffEn b).inbox = s.inbox := rfl
@[simp] theorem withUnstuffEn_unstuffEn (b : Bool) : (s.withUnstuffEn b).unstuffEn = b := rfl
@[simp] theorem withUnstuffEn_err (b : Bool) : (s.withUnstuffEn b).err = s.err := rfl
@[simp] theorem withUnstuffEn_csum (b : Bool) : (s.withUnstuffEn b).csum = s.csum := rfl
@[simp] theorem withUnstuffEn_tx (b : Bool) : (s.withUnstuffEn b).tx = s.tx := rfl
@[simp] theorem withUnstuffEn_escBody (b : Bool) : (s.withUnstuffEn b).escBody = s.escBody := rfl
@[simp] theorem withUnstuffEn_rx (b : Bool) : (s.withUnstuffEn b).rx = s.rx := rfl
@[simp] theorem withUnstuffEn_res (b : Bool) : (s.withUnstuffEn b).res = s.res := rfl
@[simp] theorem withUnstuffEn_txq (b : Bool) : (s.withUnstuffEn b).txq = s.txq := rfl
@[simp] theorem withUnstuffEn_emitted (b : Bool) : (s.withUnstuffEn b).emitted = s.emitted := rfl

/-! ### withCsum -/

@[simp] theorem withCsum_params (v : Word) : (s.withCsum v).params = s.params := rfl
@[simp] theorem withCsum_inbox (v : Word) : (s.withCsum v).inbox = s.inbox := rfl
@[simp] theorem withCsum_unstuffEn (v : Word) : (s.withCsum v).unstuffEn = s.unstuffEn := rfl
@[simp] theorem withCsum_err (v : Word) : (s.withCsum v).err = s.err := rfl
@[simp] theorem withCsum_csum (v : Word) : (s.withCsum v).csum = v := rfl
@[simp] theorem withCsum_tx (v : Word) : (s.withCsum v).tx = s.tx := rfl
@[simp] theorem withCsum_escBody (v : Word) : (s.withCsum v).escBody = s.escBody := rfl
@[simp] theorem withCsum_rx (v : Word) : (s.withCsum v).rx = s.rx := rfl
@[simp] theorem withCsum_res (v : Word) : (s.withCsum v).res = s.res := rfl
@[simp] theorem withCsum_txq (v : Word) : (s.withCsum v).txq = s.txq := rfl
@[simp] theorem withCsum_emitted (v : Word) : (s.withCsum v).emitted = s.emitted := rfl

/-! ### withTx -/

@[simp] theorem withTx_params (p : TxPath) : (s.withTx p).params = s.params := rfl
@[simp] theorem withTx_inbox (p : TxPath) : (s.withTx p).inbox = s.inbox := rfl
@[simp] theorem withTx_unstuffEn (p : TxPath) : (s.withTx p).unstuffEn = s.unstuffEn := rfl
@[simp] theorem withTx_err (p : TxPath) : (s.withTx p).err = s.err := rfl
@[simp] theorem withTx_csum (p : TxPath) : (s.withTx p).csum = s.csum := rfl
@[simp] theorem withTx_tx (p : TxPath) : (s.withTx p).tx = p := rfl
@[simp] theorem withTx_escBody (p : TxPath) : (s.withTx p).escBody = s.escBody := rfl
@[simp] theorem withTx_rx (p : TxPath) : (s.withTx p).rx = s.rx := rfl
@[simp] theorem withTx_res (p : TxPath) : (s.withTx p).res = s.res := rfl
@[simp] theorem withTx_txq (p : TxPath) : (s.withTx p).txq = s.txq := rfl
@[simp] theorem withTx_emitted (p : TxPath) : (s.withTx p).emitted = s.emitted := rfl

/-! ### withEscBody -/

@[simp] theorem withEscBody_params (b : Bool) : (s.withEscBody b).params = s.params := rfl
@[simp] theorem withEscBody_inbox (b : Bool) : (s.withEscBody b).inbox = s.inbox := rfl
@[simp] theorem withEscBody_unstuffEn (b : Bool) : (s.withEscBody b).unstuffEn = s.unstuffEn := rfl
@[simp] theorem withEscBody_err (b : Bool) : (s.withEscBody b).err = s.err := rfl
@[simp] theorem withEscBody_csum (b : Bool) : (s.withEscBody b).csum = s.csum := rfl
@[simp] theorem withEscBody_tx (b : Bool) : (s.withEscBody b).tx = s.tx := rfl
@[simp] theorem withEscBody_escBody (b : Bool) : (s.withEscBody b).escBody = b := rfl
@[simp] theorem withEscBody_rx (b : Bool) : (s.withEscBody b).rx = s.rx := rfl
@[simp] theorem withEscBody_res (b : Bool) : (s.withEscBody b).res = s.res := rfl
@[simp] theorem withEscBody_txq (b : Bool) : (s.withEscBody b).txq = s.txq := rfl
@[simp] theorem withEscBody_emitted (b : Bool) : (s.withEscBody b).emitted = s.emitted := rfl

/-! ### withRx -/

@[simp] theorem withRx_params (p : RxPath) : (s.withRx p).params = s.params := rfl
@[simp] theorem withRx_inbox (p : RxPath) : (s.withRx p).inbox = s.inbox := rfl
@[simp] theorem withRx_unstuffEn (p : RxPath) : (s.withRx p).unstuffEn = s.unstuffEn := rfl
@[simp] theorem withRx_err (p : RxPath) : (s.withRx p).err = s.err := rfl
@[simp] theorem withRx_csum (p : RxPath) : (s.withRx p).csum = s.csum := rfl
@[simp] theorem withRx_tx (p : RxPath) : (s.withRx p).tx = s.tx := rfl
@[simp] theorem withRx_escBody (p : RxPath) : (s.withRx p).escBody = s.escBody := rfl
@[simp] theorem withRx_rx (p : RxPath) : (s.withRx p).rx = p := rfl
@[simp] theorem withRx_res (p : RxPath) : (s.withRx p).res = s.res := rfl
@[simp] theorem withRx_txq (p : RxPath) : (s.withRx p).txq = s.txq := rfl
@[simp] theorem withRx_emitted (p : RxPath) : (s.withRx p).emitted = s.emitted := rfl

/-! ### withRes -/

@[simp] theorem withRes_params (r : Result) : (s.withRes r).params = s.params := rfl
@[simp] theorem withRes_inbox (r : Result) : (s.withRes r).inbox = s.inbox := rfl
@[simp] theorem withRes_unstuffEn (r : Result) : (s.withRes r).unstuffEn = s.unstuffEn := rfl
@[simp] theorem withRes_err (r : Result) : (s.withRes r).err = s.err := rfl
@[simp] theorem withRes_csum (r : Result) : (s.withRes r).csum = s.csum := rfl
@[simp] theorem withRes_tx (r : Result) : (s.withRes r).tx = s.tx := rfl
@[simp] theorem withRes_escBody (r : Result) : (s.withRes r).escBody = s.escBody := rfl
@[simp] theorem withRes_rx (r : Result) : (s.withRes r).rx = s.rx := rfl
@[simp] theorem withRes_res (r : Result) : (s.withRes r).res = r := rfl
@[simp] theorem withRes_txq (r : Result) : (s.withRes r).txq = s.txq := rfl
@[simp] theorem withRes_emitted (r : Result) : (s.withRes r).emitted = s.emitted := rfl

/-! ### setErr -/

@[simp] theorem setErr_params (x : ErrFlag) : (setErr x s).params = s.params := rfl
@[simp] theorem setErr_inbox (x : ErrFlag) : (setErr x s).inbox = s.inbox := rfl
@[simp] theorem setErr_unstuffEn (x : ErrFlag) : (setErr x s).unstuffEn = s.unstuffEn := rfl
@[simp] theorem setErr_err (x : ErrFlag) : (setErr x s).err = s.err.set x := rfl
@[simp] theorem setErr_csum (x : ErrFlag) : (setErr x s).csum = s.csum := rfl
@[simp] theorem setErr_tx (x : ErrFlag) : (setErr x s).tx = s.tx := rfl
@[simp] theorem setErr_escBody (x : ErrFlag) : (setErr x s).escBody = s.escBody := rfl
@[simp] theorem setErr_rx (x : ErrFlag) : (setErr x s).rx = s.rx := rfl
@[simp] theorem setErr_res (x : ErrFlag) : (setErr x s).res = s.res := rfl
@[simp] theorem setErr_txq (x : ErrFlag) : (setErr x s).txq = s.txq := rfl
@[simp] theorem setErr_emitted (x : ErrFlag) : (setErr x s).emitted = s.emitted := rfl

/-! ### emitAll -/

@[simp] theorem emitAll_params (ps : List TxPair) : (emitAll ps s).params = s.params := rfl
@[simp] theorem emitAll_inbox (ps : List TxPair) : (emitAll ps s).inbox = s.inbox := rfl
@[simp] theorem emitAll_unstuffEn (ps : List TxPair) : (emitAll ps s).unstuffEn = s.unstuffEn := rfl
@[simp] theorem emitAll_err (ps : List TxPair) : (emitAll ps s).err = s.err := rfl
@[simp] theorem emitAll_csum (ps : List TxPair) : (emitAll ps s).csum = s.csum := rfl
@[simp] theorem emitAll_tx (ps : List TxPair) : (emitAll ps s).tx = s.tx := rfl
@[simp] theorem emitAll_escBody (ps : List TxPair) : (emitAll ps s).escBody = s.escBody := rfl
@[simp] theorem emitAll_rx (ps : List TxPair) : (emitAll ps s).rx = s.rx := rfl
@[simp] theorem emitAll_res (ps : List TxPair) : (emitAll ps s).res = s.res := rfl
@[simp] theorem emitAll_txq (ps : List TxPair) : (emitAll ps s).txq = s.txq ++ ps := rfl
@[simp] theorem emitAll_emitted (ps : List TxPair) : (emitAll ps s).emitted = s.emitted ++ ps := rfl

/-! ### emit -/

@[simp] theorem emit_params (b : Byte) (l : Bool) : (emit b l s).params = s.params := rfl
@[simp] theorem emit_inbox (b : Byte) (l : Bool) : (emit b l s).inbox = s.inbox := rfl
@[simp] theorem emit_unstuffEn (b : Byte) (l : Bool) : (emit b l s).unstuffEn = s.unstuffEn := rfl
@[simp] theorem emit_err (b : Byte) (l : Bool) : (emit b l s).err = s.err := rfl
@[simp] theorem emit_csum (b : Byte) (l : Bool) : (emit b l s).csum = s.csum := rfl
@[simp] theorem emit_tx (b : Byte) (l : Bool) : (emit b l s).tx = s.tx := rfl
@[simp] theorem emit_escBody (b : Byte) (l : Bool) : (emit b l s).escBody = s.escBody := rfl
@[simp] theorem emit_rx (b : Byte) (l : Bool) : (emit b l s).rx = s.rx := rfl
@[simp] theorem emit_res (b : Byte) (l : Bool) : (emit b l s).res = s.res := rfl
@[simp] theorem emit_txq (b : Byte) (l : Bool) : (emit b l s).txq = s.txq ++ [⟨b, l⟩] := rfl
@[simp] theorem emit_emitted (b : Byte) (l : Bool) : (emit b l s).emitted = s.emitted ++ [⟨b, l⟩] := rfl

/-! ### takePair -/

@[simp] theorem takePair_params : (takePair s).params = s.params := rfl
@[simp] theorem takePair_inbox : (takePair s).inbox = s.inbox := rfl
@[simp] theorem takePair_unstuffEn : (takePair s).unstuffEn = s.unstuffEn := rfl
@[simp] theorem takePair_err : (takePair s).err = s.err := rfl
@[simp] theorem takePair_csum : (takePair s).csum = s.csum := rfl
@[simp] theorem takePair_tx : (takePair s).tx = s.tx := rfl
@[simp] theorem takePair_escBody : (takePair s).escBody = s.escBody := rfl
@[simp] theorem takePair_rx : (takePair s).rx = s.rx := rfl
@[simp] theorem takePair_res : (takePair s).res = s.res := rfl
@[simp] theorem takePair_txq : (takePair s).txq = s.txq.drop 1 := rfl
@[simp] theorem takePair_emitted : (takePair s).emitted = s.emitted := rfl

/-! ### ERR flags -/

@[simp] theorem errFlags_set_get_self (e : ErrFlags) (x : ErrFlag) : (e.set x).get x = true := by cases x <;> rfl

theorem errFlags_set_get_of_ne (e : ErrFlags) (x y : ErrFlag) (h : y ≠ x) : (e.set x).get y = e.get y := by
  cases x <;> cases y <;> first | rfl | exact absurd rfl h

theorem errFlags_get_set_of_get (e : ErrFlags) (x y : ErrFlag) (h : e.get y = true) : (e.set x).get y = true := by
  by_cases hxy : y = x
  · subst hxy; simp
  · rw [errFlags_set_get_of_ne e x y hxy]; exact h

end Sys2Proof.Machine
end

