-- ==== Sys2Proof/Laws/Ops.lean ====
section
/-! SUPPORT. Sys2Proof/Laws/Ops.lean: what each shared operation can do, said once: the buffers' frames, Store, Complete,
the pairs of a frame, lists of operations. -/

namespace Sys2Proof.Machine

/-! ### Frames read from the buffers -/

@[simp] theorem length_txPayload (s : State) : (txPayload s).length = s.tx.plen.toNat := by simp [txPayload]
@[simp] theorem length_rxFrame (s : State) : (rxFrame s).length = s.rx.len.toNat := by simp [rxFrame]

/-- The payload depends on TX_PLEN and TXBUF only. -/
theorem txPayload_congr {s t : State} (hl : t.tx.plen = s.tx.plen)
    (hb : ∀ i, i < s.tx.plen.toNat → txByte t i = txByte s i) : txPayload t = txPayload s := by
  unfold txPayload
  rw [hl]
  exact List.map_congr_left fun i hi => hb i (List.mem_range.mp hi)

/-- The received frame depends on RX_LEN and RXBUF only. -/
theorem rxFrame_congr {s t : State} (hl : t.rx.len = s.rx.len)
    (hb : ∀ i, i < s.rx.len.toNat → rxByte t i = rxByte s i) : rxFrame t = rxFrame s := by
  unfold rxFrame
  rw [hl]
  exact List.map_congr_left fun i hi => hb i (List.mem_range.mp hi)

theorem txByte_of_tx_eq {s t : State} (h : t.tx = s.tx) (i : Nat) : txByte t i = txByte s i := by
  simp [txByte, h]

theorem rxByte_of_rx_eq {s t : State} (h : t.rx = s.rx) (i : Nat) : rxByte t i = rxByte s i := by
  simp [rxByte, h]

theorem txPayload_of_tx_eq {s t : State} (h : t.tx = s.tx) : txPayload t = txPayload s :=
  txPayload_congr (by rw [h]) fun i _ => txByte_of_tx_eq h i

theorem rxFrame_of_rx_eq {s t : State} (h : t.rx = s.rx) : rxFrame t = rxFrame s :=
  rxFrame_congr (by rw [h]) fun i _ => rxByte_of_rx_eq h i

theorem maxPayload_le (p : Params) : p.maxPayload ≤ 65532 := by
  have := p.payloadRoom.isLt
  unfold Params.maxPayload; omega

theorem le_maxPayload (p : Params) : 8 ≤ p.maxPayload := by unfold Params.maxPayload; omega

theorem maxRx_le (p : Params) : p.maxRx ≤ 65535 := by
  have := p.rxRoom.isLt
  unfold Params.maxRx; omega

theorem le_maxRx (p : Params) : 11 ≤ p.maxRx := by unfold Params.maxRx; omega

/-- A 16-bit count below 65535 steps up by one exactly. -/
theorem toNat_succ {v : Word} (h : v.toNat < 65535) : (v + 1#16).toNat = v.toNat + 1 := by
  rw [BitVec.toNat_add]
  show (v.toNat + 1) % 65536 = v.toNat + 1
  omega

/-! ### Store (R106) -/

/-- Store with room: one byte at RX_LEN, RX_LEN one more, the rest of the path as before. -/
theorem store_of_lt {cap : Nat} {p : RxPath} (v : Byte) (h : p.len.toNat < cap) :
    store cap v p = { p with buf := p.buf.writeByte p.len.toNat v, len := p.len + 1#16 } := by
  simp [store, h]

/-- Store without room: the byte is dropped and RX_OVF set. -/
theorem store_of_le {cap : Nat} {p : RxPath} (v : Byte) (h : cap ≤ p.len.toNat) :
    store cap v p = { p with ovf := true } := by
  simp [store, Nat.not_lt.mpr h]

@[simp] theorem store_body (cap : Nat) (v : Byte) (p : RxPath) : (store cap v p).body = p.body := by
  unfold store; split <;> rfl
@[simp] theorem store_mode (cap : Nat) (v : Byte) (p : RxPath) : (store cap v p).mode = p.mode := by
  unfold store; split <;> rfl
@[simp] theorem store_dscEsc (cap : Nat) (v : Byte) (p : RxPath) : (store cap v p).dscEsc = p.dscEsc := by
  unfold store; split <;> rfl
@[simp] theorem store_dscErr (cap : Nat) (v : Byte) (p : RxPath) : (store cap v p).dscErr = p.dscErr := by
  unfold store; split <;> rfl

/-- The bytes below the length of a path whose buffer is `m`. -/
def frameOf (m : Memory) (n : Nat) : List Byte :=
  (List.range n).map fun i => (m.readByte i).getD (Config.rxbufReset i)

theorem rxFrame_eq_frameOf (s : State) : rxFrame s = frameOf s.rx.buf s.rx.len.toNat := rfl

/-- A store with room appends its byte to the frame. -/
theorem frameOf_store_of_lt {cap : Nat} {p : RxPath} (v : Byte) (h : p.len.toNat < cap) (hc : cap ≤ 65535) :
    frameOf (store cap v p).buf (store cap v p).len.toNat = frameOf p.buf p.len.toNat ++ [v] := by
  have hl : (p.len + 1#16).toNat = p.len.toNat + 1 := toNat_succ (by omega)
  rw [store_of_lt v h]
  simp only [frameOf, hl, List.range_succ, List.map_append, List.map_cons, List.map_nil]
  congr 1
  · refine List.map_congr_left fun i hi => ?_
    have hi := List.mem_range.mp hi
    rw [readByte_writeByte_of_ne _ _ _ _ (by omega)]
  · simp

/-! ### The state after one byte on the receive path -/

/-- RX_BYTE changes the receive path and, on the last byte of a frame, the results. -/
theorem receiveByte_eq (d : Byte) (l : Bool) (s : State) :
    receiveByte d l s = (s.withRx (receiveByte d l s).rx).withRes (receiveByte d l s).res := by
  cases l <;> rfl

@[simp] theorem receiveByte_rx (d : Byte) (l : Bool) (s : State) :
    (receiveByte d l s).rx = receivePath s.params.maxRx s.unstuffEn d l s.rx := by
  cases l <;> rfl

theorem receiveByte_res_of_not_last (d : Byte) (s : State) : (receiveByte d false s).res = s.res := rfl

theorem receiveByte_last (d : Byte) (s : State) :
    receiveByte d true s = complete (s.withRx (receivePath s.params.maxRx s.unstuffEn d true s.rx)) := rfl

/-! ### Complete (R120) -/

/-- The decoder leaves what Complete() wrote before it: DONE, VALID and the header fields. -/
theorem decodeFrame_keeps (p : Params) (f : List Byte) (n : Nat) (r : Result) :
    (decodeFrame p f n r).done = r.done ∧ (decodeFrame p f n r).valid = r.valid ∧
      (decodeFrame p f n r).cmd = r.cmd ∧ (decodeFrame p f n r).lenf = r.lenf := by
  simp only [decodeFrame, decodeLevel, decodeAlarm, decodeRaw]
  repeat' split
  all_goals exact ⟨rfl, rfl, rfl, rfl⟩

theorem completedResult_of_ok (p : Params) {ovf dscErr : Bool} {f : List Byte} {n : Nat}
    (h : checkFrame ovf dscErr f n = .ok) :
    completedResult p ovf dscErr f n = decodeFrame p f n { clearedResult f n with valid := true } := if_pos h

theorem completedResult_of_ne (p : Params) {ovf dscErr : Bool} {f : List Byte} {n : Nat}
    (h : checkFrame ovf dscErr f n ≠ .ok) :
    completedResult p ovf dscErr f n = { clearedResult f n with reason := checkFrame ovf dscErr f n } := if_neg h

/-- A completed frame is valid exactly when every check passed. -/
theorem completedResult_valid (p : Params) (ovf dscErr : Bool) (f : List Byte) (n : Nat) :
    (completedResult p ovf dscErr f n).valid = true ↔ checkFrame ovf dscErr f n = .ok := by
  by_cases h : checkFrame ovf dscErr f n = .ok
  · simp [completedResult_of_ok p h, decodeFrame_keeps, h]
  · simp [completedResult_of_ne p h, clearedResult, Result.reset, h]

/-- Complete() writes the result registers only. -/
theorem complete_eq_withRes (s : State) :
    complete s = s.withRes (completedResult s.params s.rx.ovf s.rx.dscErr (rxFrame s) s.rx.len.toNat) := rfl

/-! ### What the transmit operations and the escaper may change -/

/-- TX_BEGIN changes ERR and the transmit path only. -/
theorem beginFrame_eq (c : Byte) (s : State) :
    beginFrame c s = { s with err := (beginFrame c s).err, tx := (beginFrame c s).tx } := by
  unfold beginFrame; split <;> rfl

/-- TX_DATA changes ERR and the transmit path only. -/
theorem appendPayload_eq (p : Byte) (s : State) :
    appendPayload p s = { s with err := (appendPayload p s).err, tx := (appendPayload p s).tx } := by
  unfold appendPayload; repeat' split
  all_goals rfl

/-- TX_END changes ERR, CSUM, the transmit path and the stream only. -/
theorem endFrame_eq (s : State) :
    endFrame s = { s with
      err := (endFrame s).err, csum := (endFrame s).csum, tx := (endFrame s).tx
      txq := (endFrame s).txq, emitted := (endFrame s).emitted } := by
  unfold endFrame; repeat' split
  all_goals rfl

/-- ESC_BYTE changes ESC_BODY and the stream only. -/
theorem escapeByte_eq (d : Byte) (l : Bool) (s : State) :
    escapeByte d l s = { s with
      escBody := (escapeByte d l s).escBody, txq := (escapeByte d l s).txq
      emitted := (escapeByte d l s).emitted } := by
  unfold escapeByte; repeat' split
  all_goals rfl

/-! ### The pairs of a frame -/

@[simp] theorem pairs_nil : pairs [] = [] := rfl
@[simp] theorem pairs_singleton (b : Byte) : pairs [b] = [⟨b, true⟩] := rfl
@[simp] theorem pairs_cons_cons (b c : Byte) (bs : List Byte) :
    pairs (b :: c :: bs) = ⟨b, false⟩ :: pairs (c :: bs) := rfl

/-- All bytes but the final one are marked 0, the final one 1. -/
theorem pairs_append_singleton (f : List Byte) (z : Byte) :
    pairs (f ++ [z]) = f.map (fun b => (⟨b, false⟩ : TxPair)) ++ [⟨z, true⟩] := by
  induction f with
  | nil => rfl
  | cons b f ih =>
    cases f with
    | nil => rfl
    | cons c f => simpa using ih

theorem pairs_eq_nil {f : List Byte} : pairs f = [] ↔ f = [] := by
  rcases f with _ | ⟨b, _ | ⟨c, f⟩⟩ <;> simp

/-! ### Lists of operations -/

@[simp] theorem execAll_nil (s : State) : execAll [] s = .next s := rfl

theorem execAll_cons_of_next {i : Instr} {is : List Instr} {s t : State} (h : exec i s = .next t) :
    execAll (i :: is) s = execAll is t := by
  simp [execAll, h]

theorem execAll_append_of_next {is js : List Instr} {s t : State} (h : execAll is s = .next t) :
    execAll (is ++ js) s = execAll js t := by
  induction is generalizing s with
  | nil => cases h; rfl
  | cons i is ih =>
    simp only [execAll, List.cons_append] at h ⊢
    cases hi : exec i s with
    | next u => rw [hi] at h; exact ih h
    | fault f => exact nomatch f
    | refused r => rw [hi] at h; cases h

end Sys2Proof.Machine
end

