-- ==== Sys2Proof/Laws/Exec.lean ====
section
/-! SUPPORT. Sys2Proof/Laws/Exec.lean: exec as the operations it calls, one lemma per operation, and what a step does,
one case per thing the host can do. -/

namespace Sys2Proof.Machine

@[simp] theorem exec_nop (s : State) : exec .nop s = .next s := rfl
@[simp] theorem exec_csumClr (s : State) : exec .csumClr s = .next (s.withCsum 0x0000#16) := rfl
@[simp] theorem exec_csumAdd (d : Byte) (s : State) :
    exec (.csumAdd d) s = .next (s.withCsum (s.csum + zext16 d)) := rfl
@[simp] theorem exec_txBegin (c : Byte) (s : State) : exec (.txBegin c) s = .next (beginFrame c s) := rfl
@[simp] theorem exec_txData (p : Byte) (s : State) : exec (.txData p) s = .next (appendPayload p s) := rfl
@[simp] theorem exec_txEnd (s : State) : exec .txEnd s = .next (endFrame s) := rfl
@[simp] theorem exec_escByte (d : Byte) (l : Bool) (s : State) :
    exec (.escByte d l) s = .next (escapeByte d l s) := rfl
@[simp] theorem exec_rxByte (d : Byte) (l : Bool) (s : State) :
    exec (.rxByte d l) s = .next (receiveByte d l s) := rfl
@[simp] theorem exec_rxAbort (s : State) :
    exec .rxAbort s = .next (s.withRx
      { s.rx with body := false, len := 0x0000#16, dscEsc := false, dscErr := false, ovf := false }) := rfl
@[simp] theorem exec_cfgWr (b : Bool) (s : State) : exec (.cfgWr b) s = .next (s.withUnstuffEn b) := rfl

/-- Everything a step can do: nothing while the host does nothing; the operation of a legal word; SetErr(ILLEGAL) for
any other word; reset; the host's taking of a pair. -/
theorem step_cases {s t : State} (h : step s = .next t) :
    (s.inbox = [] ∧ t = s) ∨
    (∃ w rest i, s.inbox = .op w :: rest ∧ decodeWord w = .ok i ∧ exec i (s.withInbox rest) = .next t) ∨
    (∃ w rest r, s.inbox = .op w :: rest ∧ decodeWord w = .error r ∧ t = acceptIllegal (s.withInbox rest)) ∨
    (∃ rest, s.inbox = .rst :: rest ∧ t = assertReset (s.withInbox rest)) ∨
    (∃ rest, s.inbox = .takePair :: rest ∧ t = takePair (s.withInbox rest)) := by
  unfold step nextEvent at h
  cases hin : s.inbox with
  | nil => rw [hin] at h; cases h; exact .inl ⟨rfl, rfl⟩
  | cons e rest =>
    rw [hin] at h
    cases e with
    | op w =>
      cases hd : decodeWord w with
      | ok i => simp only [hd] at h; exact .inr (.inl ⟨w, rest, i, rfl, hd, h⟩)
      | error r =>
        simp only [hd] at h
        cases h
        exact .inr (.inr (.inl ⟨w, rest, r, rfl, hd, rfl⟩))
    | rst => cases h; exact .inr (.inr (.inr (.inl ⟨rest, rfl, rfl⟩)))
    | takePair => cases h; exact .inr (.inr (.inr (.inr ⟨rest, rfl, rfl⟩)))

end Sys2Proof.Machine
end

