-- ==== Sys2Proof/Laws/PerInstr.lean ====
section
/-! SUPPORT. Sys2Proof/Laws/PerInstr.lean: the family LegalEncoding, a statement about each instruction as syntax: the
word that encodes it has no bit set that 30_encoding.md R66 requires to be zero, and its OPC is that of R65. -/

namespace Sys2Proof

/-- The operation code of R65. -/
def Laws.LegalEncoding.opcode : Instr → BitVec 4
  | .nop => 0x0#4
  | .csumClr => 0x1#4
  | .csumAdd _ => 0x2#4
  | .txBegin _ => 0x3#4
  | .txData _ => 0x4#4
  | .txEnd => 0x5#4
  | .escByte _ _ => 0x6#4
  | .rxByte _ _ => 0x7#4
  | .rxAbort => 0x8#4
  | .cfgWr _ => 0x9#4

/-- The encoded word is legal (R66) and carries the operation's code (R65). -/
def Laws.LegalEncoding.Statement (i : Instr) : Prop :=
  (fieldsOf (encode i)).wellFormed = true ∧ (fieldsOf (encode i)).opc = Laws.LegalEncoding.opcode i

theorem Laws.LegalEncoding.nop : Laws.LegalEncoding.Statement .nop := by
  unfold Laws.LegalEncoding.Statement; decide

theorem Laws.LegalEncoding.csumClr : Laws.LegalEncoding.Statement .csumClr := by
  unfold Laws.LegalEncoding.Statement; decide

theorem Laws.LegalEncoding.csumAdd (d : Byte) : Laws.LegalEncoding.Statement (.csumAdd d) := by
  unfold Laws.LegalEncoding.Statement; revert d; decide

theorem Laws.LegalEncoding.txBegin (c : Byte) : Laws.LegalEncoding.Statement (.txBegin c) := by
  unfold Laws.LegalEncoding.Statement; revert c; decide

theorem Laws.LegalEncoding.txData (p : Byte) : Laws.LegalEncoding.Statement (.txData p) := by
  unfold Laws.LegalEncoding.Statement; revert p; decide

theorem Laws.LegalEncoding.txEnd : Laws.LegalEncoding.Statement .txEnd := by
  unfold Laws.LegalEncoding.Statement; decide

theorem Laws.LegalEncoding.escByte (d : Byte) (last : Bool) : Laws.LegalEncoding.Statement (.escByte d last) := by
  unfold Laws.LegalEncoding.Statement; revert d last; decide

theorem Laws.LegalEncoding.rxByte (d : Byte) (last : Bool) : Laws.LegalEncoding.Statement (.rxByte d last) := by
  unfold Laws.LegalEncoding.Statement; revert d last; decide

theorem Laws.LegalEncoding.rxAbort : Laws.LegalEncoding.Statement .rxAbort := by
  unfold Laws.LegalEncoding.Statement; decide

theorem Laws.LegalEncoding.cfgWr (b : Bool) : Laws.LegalEncoding.Statement (.cfgWr b) := by
  unfold Laws.LegalEncoding.Statement; revert b; decide

end Sys2Proof
end

