-- ==== Sys2Proof/Tests/Slice0.lean ====
section
/-! SUPPORT. Sys2Proof/Tests/Slice0.lean: tests of the model against the vectors of 95_test_vectors.md and the examples of
the operation rules, and for every statement with hypotheses a witness that meets them. -/

namespace Sys2Proof.Tests

open Sys2Proof Sys2Proof.Machine

/-- TCFG of 95_test_vectors.md section 0: MAX_PAYLOAD = 16, MAX_RX = 32, IDs E1 to E4. -/
def tcfg : Params := ⟨8, 21, 0xE1#8, 0xE2#8, 0xE3#8, 0xE4#8⟩

/-- TCFG-S of 95_test_vectors.md section 0: the smallest sizes, MAX_PAYLOAD = 8, MAX_RX = 11. -/
def tcfgS : Params := ⟨0, 0, 0xE1#8, 0xE2#8, 0xE3#8, 0xE4#8⟩

/-- Clean under TCFG-S. -/
def clean : State := State.clean tcfgS

/-- A frame open in the builder with `n` bytes collected. -/
def collecting (n : Nat) : State := clean.withTx { clean.tx with active := true, plen := BitVec.ofNat 16 n }

/-- The escaper inside a frame. -/
def escaping : State := clean.withEscBody true

/-- A buffer that holds the bytes from index 0 on. -/
def bufferOf (f : List Byte) : Memory := f.zipIdx.map fun x => (x.2, x.1)

/-- Inside a received frame with the bytes `f` stored. -/
def receiving (f : List Byte) : State :=
  clean.withRx { clean.rx with body := true, len := BitVec.ofNat 16 f.length, buf := bufferOf f }

/-- Inside a received frame in RX_MODE 1, an escape prefix pending or not. -/
def descaping (pending : Bool) (f : List Byte) : State :=
  (receiving f).withRx { (receiving f).rx with mode := true, dscEsc := pending }

/-- The state an outcome gives, if it is a next state. -/
def after : Host.Outcome State Fault Refusal → Option State
  | .next s => some s
  | .fault _ => none
  | .refused _ => none

/-- The bytes of TXQ with their last marks. -/
def wire (s : State) : List (Byte × Bool) := s.txq.map fun q => (q.byte, q.last)

/-! ### Well-formedness: an ill-formed term for each check (R66, R9) -/

theorem test_wf_refuses_rsv : (OpWord.mk 7 1 false 0x00#8).wellFormed = false := by decide
theorem test_wf_refuses_data_of_nop : (OpWord.mk 0 0 false 0x01#8).wellFormed = false := by decide
theorem test_wf_refuses_last_of_tx_end : (OpWord.mk 5 0 true 0x00#8).wellFormed = false := by decide
theorem test_wf_refuses_last_of_csum_add : (OpWord.mk 2 0 true 0x10#8).wellFormed = false := by decide
theorem test_wf_refuses_last_of_cfg_wr : (OpWord.mk 9 0 true 0x01#8).wellFormed = false := by decide
theorem test_wf_refuses_data_of_cfg_wr : (OpWord.mk 9 0 false 0x02#8).wellFormed = false := by decide
theorem test_wf_refuses_reserved_opcode : (OpWord.mk 10 0 false 0x00#8).wellFormed = false := by decide
theorem test_wf_accepts_esc_byte_last : (OpWord.mk 6 0 true 0x02#8).wellFormed = true := by decide
theorem test_wf_accepts_distinct_ids : tcfg.wellFormed = true := by decide
theorem test_wf_refuses_equal_ids :
    [(⟨0, 0, 1, 1, 3, 4⟩ : Params), ⟨0, 0, 1, 2, 1, 4⟩, ⟨0, 0, 1, 2, 3, 1⟩, ⟨0, 0, 1, 2, 2, 4⟩, ⟨0, 0, 1, 2, 3, 2⟩,
      ⟨0, 0, 1, 2, 3, 3⟩].all (fun p => p.wellFormed == false) = true := by decide

/-! ### Decoding: a word of every row, its fields OPC, RSV, L, D written out from R61 and R65 -/

theorem test_decode_nop : decodeWord 0b0000_000_0_00000000#16 = .ok .nop := by decide
theorem test_decode_csum_clr : decodeWord 0b0001_000_0_00000000#16 = .ok .csumClr := by decide
theorem test_decode_csum_add : decodeWord 0b0010_000_0_10000001#16 = .ok (.csumAdd 0x81#8) := by decide
theorem test_decode_tx_begin : decodeWord 0b0011_000_0_00110000#16 = .ok (.txBegin 0x30#8) := by decide
theorem test_decode_tx_data : decodeWord 0b0100_000_0_00000001#16 = .ok (.txData 0x01#8) := by decide
theorem test_decode_tx_end : decodeWord 0b0101_000_0_00000000#16 = .ok .txEnd := by decide
theorem test_decode_esc_byte : decodeWord 0b0110_000_0_10000010#16 = .ok (.escByte 0x82#8 false) := by decide
theorem test_decode_esc_byte_last : decodeWord 0b0110_000_1_00000010#16 = .ok (.escByte 0x02#8 true) := by decide
theorem test_decode_rx_byte : decodeWord 0b0111_000_0_01010101#16 = .ok (.rxByte 0x55#8 false) := by decide
theorem test_decode_rx_byte_last : decodeWord 0b0111_000_1_00000010#16 = .ok (.rxByte 0x02#8 true) := by decide
theorem test_decode_rx_abort : decodeWord 0b1000_000_0_00000000#16 = .ok .rxAbort := by decide
theorem test_decode_cfg_wr_0 : decodeWord 0b1001_000_0_00000000#16 = .ok (.cfgWr false) := by decide
theorem test_decode_cfg_wr_1 : decodeWord 0b1001_000_0_00000001#16 = .ok (.cfgWr true) := by decide

/-- V-CTL-4 to V-CTL-12: the illegal words, each under its name. -/
theorem test_decode_rejects_by_name :
    [0x0001#16, 0x1001#16, 0x2100#16, 0x5100#16, 0x7200#16, 0x8001#16, 0x9002#16, 0xA000#16, 0xFFFF#16].map decodeWord =
      [.error .dataBits, .error .dataBits, .error .lastBit, .error .lastBit, .error .reservedBits, .error .dataBits,
        .error .dataBits, .error .reservedOpcode, .error .reservedOpcode] := by decide

theorem test_decodeTableWord : decodeTableWord 16 0x6102 = some (.escByte 0x02#8 true) ∧
    decodeTableWord 16 0xA000 = none := by decide

/-- R74: the encodings listed there. -/
theorem test_encode_examples :
    [Instr.nop, .csumAdd 0xFF#8, .txBegin 0x30#8, .txData 0x01#8, .txEnd, .escByte 0x02#8 true, .rxByte 0x55#8 false,
      .rxByte 0x02#8 true, .rxAbort, .cfgWr true].map encode =
      [0x0000#16, 0x20FF#16, 0x3030#16, 0x4001#16, 0x5000#16, 0x6102#16, 0x7055#16, 0x7102#16, 0x8000#16,
        0x9001#16] := by decide

/-! ### Assembly (R69) -/

theorem test_assemble_last : assembleLine "ESC_BYTE 0x02, last ; end".toList = .operation (.escByte 0x02#8 true) := by
  decide
theorem test_assemble_refuses_cfg_wr_2 : assembleLine "CFG_WR 2".toList = .malformed := by decide

/-! ### One step of each operation -/

/-- The word at the head of the inbox runs; the rest of the inbox stays. -/
theorem test_step_runs_word :
    (after (step ((clean.withFetchWord 16 0x9001).withFetchWord 16 0x2010))).map (fun s => (s.csum, s.inbox)) =
      some (0x0010#16, [.op 0x9001#16]) := by decide
/-- The first step after reset runs the word placed, whatever the open parameters are. -/
theorem test_step_from_reset : ∃ t, step (State.reset.withFetchWord 16 0x2010) = .next t ∧ t.csum = 0x0010#16 :=
  ⟨_, rfl, by decide⟩
/-- P5 word 2: 0xA5A5. -/
theorem test_step_illegal :
    (after (step (clean.withFetchWord 16 0xA5A5))).map (fun s => (readReg s 1, s.csum)) = some (1#16, 0#16) := by decide
theorem test_step_rst : (after (step (({ escaping with csum := 7#16 }).withInbox [.rst, .takePair]))).map
    (fun s => (s.escBody, s.csum, s.inbox)) = some (false, 0#16, [.takePair]) := by decide
theorem test_step_take_pair : (after (step ((emitAll [⟨1, false⟩, ⟨2, true⟩] clean).withInbox [.takePair]))).map
    (fun s => (s.txq, s.emitted)) = some ([⟨2, true⟩], [⟨1, false⟩, ⟨2, true⟩]) := by decide
theorem test_step_idle : after (step clean) = some clean := by decide

theorem test_nop : after (exec .nop escaping) = some escaping := by decide
/-- R77's example. -/
theorem test_csum_clr : (after (exec .csumClr (clean.withCsum 0x1234#16))).map (·.csum) = some 0#16 := by decide
/-- R78's example and V-CS-8 (the sum wraps). -/
theorem test_csum_add : (after (exec (.csumAdd 0x10#8) (clean.withCsum 0x0033#16))).map (·.csum) = some 0x0043#16 := by
  decide
theorem test_csum_add_wraps : (after (exec (.csumAdd 0xFF#8) (clean.withCsum 0xFF80#16))).map (·.csum) =
    some 0x007F#16 := by decide
/-- R82's example; a second TX_BEGIN sets TX_SEQ. -/
theorem test_tx_begin : (after (exec (.txBegin 0x30#8) clean)).map (fun s => (readReg s 1, readReg s 3, s.tx.cmd)) =
    some (0#16, 1#16, 0x30#8) := by decide
theorem test_tx_begin_again : (after (exec (.txBegin 0x31#8) (collecting 3))).map
    (fun s => (readReg s 1, s.tx.cmd, s.tx.plen)) = some (2#16, 0x31#8, 0#16) := by decide
/-- R83's example; V-TXE-4's ninth byte is dropped. -/
theorem test_tx_data : (after (exec (.txData 0x10#8) (collecting 0))).map (fun s => (txPayload s, s.tx.plen)) =
    some ([0x10#8], 1#16) := by decide
theorem test_tx_data_full : (after (exec (.txData 0x11#8) (collecting 8))).map
    (fun s => (readReg s 1, readReg s 3, s.tx.plen)) = some (4#16, 3#16, 8#16) := by decide
/-- V-TX-6: both checksum bytes, CKSUM_HI escaped. -/
theorem test_tx_end : (after (exec .txEnd ((collecting 1).withTx
      { (collecting 1).tx with cmd := 0x30#8, buf := [(0, 0xF9#8)] }))).map (fun s => (wire s, s.csum)) =
    some ([(0x01, false), (0x04, false), (0x00, false), (0x30, false), (0xF9, false), (0x2D, false), (0x03, false),
      (0x04, false), (0x02, true)], 0x012D#16) := by decide
/-- V-TXE-5: TX_END is refused inside an ESC_BYTE frame and the frame stays open. -/
theorem test_tx_end_busy : (after (exec .txEnd ((collecting 0).withEscBody true))).map
    (fun s => (readReg s 1, readReg s 3, s.txq)) = some (8#16, 1#16, []) := by decide
/-- 95_test_vectors.md 2.4, single steps. -/
theorem test_esc_byte_inside : (after (exec (.escByte 0x03#8 false) escaping)).map (fun s => (wire s, s.escBody)) =
    some ([(0x03, false), (0x06, false)], true) := by decide
theorem test_esc_byte_one_byte_frame : (after (exec (.escByte 0x55#8 true) clean)).map
    (fun s => (wire s, s.escBody)) = some ([(0x55, true)], false) := by decide
/-- W1: the last byte of the alarm reply. -/
theorem test_rx_byte_alarm :
    (after (exec (.rxByte 0x02#8 true) (receiving [0x01, 0x00, 0x06, 0x04, 0xE3, 0x55, 0x16, 0x1E, 0x01, 0x01]))).map
      (fun s => (s.res, readReg s 8)) =
    some ({ Result.reset with
      done := true, valid := true, kind := .alarm, cmd := 0xE3#8, lenf := 0x0600#16, hour := 22#8, minute := 30#8,
      scene := 1#8, enabled := true }, 11#16) := by decide
/-- R111's example: (0x03, 0x00) stores 0xFD and is an error. -/
theorem test_rx_byte_bad_escape : (after (exec (.rxByte 0x00#8 false) (descaping true [0x01#8]))).map
    (fun s => (rxFrame s, readReg s 7)) = some ([0x01#8, 0xFD#8], 0x0B#16) := by decide
/-- 95_test_vectors.md 2.5: RX_ABORT with three bytes received. -/
theorem test_rx_abort : (after (exec .rxAbort (descaping true [0x01, 0x00, 0x00]))).map
    (fun s => (readReg s 7, s.rx.len, s.res)) = some (0x02#16, 0#16, clean.res) := by decide
theorem test_cfg_wr : (after (exec (.cfgWr true) clean)).map (fun s => readReg s 0) = some 1#16 := by decide

/-- R118. -/
theorem test_unstuff_examples :
    unstuff [0x01, 0x03, 0x07, 0x02] = ([0x01, 0x04, 0x02], true) ∧
      unstuff [0x01, 0x55, 0x03, 0x02] = ([0x01, 0x55, 0x02], true) ∧
      unstuff [0x01, 0x01, 0x02, 0x02] = ([0x01, 0x01, 0x02, 0x02], false) ∧
      unstuff [0x03, 0x02] = ([0x03, 0x02], false) := by decide
/-- V-RX-28: equal IDs, the first match wins. -/
theorem test_first_match_wins :
    decode ⟨8, 21, 0xE1, 0xE1, 0xE3, 0xE4⟩ [0x01, 0x00, 0x00, 0x04, 0xE1, 0x55, 0x80, 0x02] = some (.voltage 0x80) := by
  decide

/-! ### Witnesses: concrete states and operands that meet the hypotheses of the statements -/

theorem test_witness_decodeInvertsEncode : decodeWord 0x9001#16 = .ok (.cfgWr true) := by decide
theorem test_witness_stepRunsDecodedWord :
    (clean.withFetchWord 16 0x2010).inbox = .op 0x2010#16 :: [] ∧ decodeWord 0x2010#16 = .ok (.csumAdd 0x10#8) := by decide
theorem test_witness_illegalWord :
    (clean.withFetchWord 16 0x7200).inbox = .op 0x7200#16 :: [] ∧ (fieldsOf 0x7200#16).wellFormed = false := by decide
theorem test_witness_cfgWr_reserved_bits :
    (clean.withFetchWord 16 0x9002).inbox = .op 0x9002#16 :: [] ∧ 0x9002 ≤ (0x9002#16).toNat ∧
      (0x90FF#16).toNat ≤ 0x90FF := by decide
theorem test_witness_everyWord : (clean.withInbox [.op 0xFFFF#16, .rst]).inbox = .op 0xFFFF#16 :: [.rst] := by decide
theorem test_witness_txq_cases :
    ((step clean, step (clean.withInbox [.op 0#16]), step (clean.withInbox [.rst]), step (clean.withInbox [.takePair]))) =
      (.next clean, .next clean, .next clean, .next clean) := by rfl
theorem test_witness_rst : (clean.withInbox [.rst]).inbox = .rst :: [] := by decide
theorem test_witness_checksum_wrap : (List.replicate 256 0xFF#8).length ≤ (⟨248, 0, 1, 2, 3, 4⟩ : Params).maxPayload ∧
    65536 ≤ ((slice (buildInnerFrame 0xFF#8 (List.replicate 256 0xFF#8)) 1
      (3 + (List.replicate 256 0xFF#8).length)).map BitVec.toNat).sum := by decide +kernel
theorem test_witness_checksum_perm : ([0x01#8, 0x02#8]).Perm [0x02#8, 0x01#8] := by decide
theorem test_witness_txData_cases :
    clean.tx.active = false ∧
      ((collecting 0).tx.active = true ∧ (collecting 0).tx.plen.toNat < (collecting 0).params.maxPayload) ∧
      ((collecting 7).tx.active = true ∧ (collecting 7).tx.plen.toNat < (collecting 7).params.maxPayload) ∧
      ((collecting 8).tx.active = true ∧ (collecting 8).params.maxPayload ≤ (collecting 8).tx.plen.toNat) := by decide
theorem test_witness_txEnd_cases :
    clean.tx.active = false ∧
      (((collecting 0).withEscBody true).tx.active = true ∧ ((collecting 0).withEscBody true).escBody = true) ∧
      (((collecting 8).withTx { (collecting 8).tx with bad := true }).tx.active = true ∧
        ((collecting 8).withTx { (collecting 8).tx with bad := true }).escBody = false ∧
        ((collecting 8).withTx { (collecting 8).tx with bad := true }).tx.bad = true) ∧
      ((collecting 0).tx.active = true ∧ (collecting 0).escBody = false ∧ (collecting 0).tx.bad = false) := by decide
theorem test_witness_innerFrame_sizes :
    ([] : List Byte).length ≤ 65532 ∧ (List.replicate 65532 0x00#8).length ≤ 65532 := by
  exact ⟨by decide, by rw [List.length_replicate]⟩
theorem test_witness_txFrame_sizes :
    clean.tx.active = false ∧ clean.escBody = false ∧ (List.replicate 8 0x01#8).length ≤ clean.params.maxPayload ∧
      clean.params.maxPayload < (List.replicate 9 0x01#8).length := by decide
theorem test_witness_path_independence :
    (∃ t, exec (.txData 0x01#8) (collecting 0) = .next t) ∧ (∃ t, exec .rxAbort (receiving [0x01]) = .next t) :=
  ⟨⟨_, rfl⟩, ⟨_, rfl⟩⟩
theorem test_witness_escByte_cases :
    clean.escBody = false ∧ escaping.escBody = true ∧ 0x01#8 ∈ [0x01#8, 0x02#8, 0x03#8] ∧
      0x03#8 ∈ [0x01#8, 0x02#8, 0x03#8] ∧ 0x00#8 ∉ [0x01#8, 0x02#8, 0x03#8] ∧ 0x04#8 ∉ [0x01#8, 0x02#8, 0x03#8] := by decide
theorem test_witness_stuff_length : 2 ≤ ([0x01, 0x02] : List Byte).length := by decide
theorem test_witness_escFrame :
    ([0x7E] : List Byte) ≠ [] ∧ clean.escBody = false ∧
      ((collecting 0).tx.active = true ∧ (collecting 0).tx.bad = false ∧ (collecting 0).escBody = false) := by decide
theorem test_witness_stuffed_prefix :
    stuff (buildInnerFrame 0x30#8 []) = 0x01#8 :: [0x03, 0x06, 0x00, 0x30, 0x33, 0x00] ++ [0x02#8] := by decide
theorem test_witness_store_cases :
    11 ≤ 65535 ∧ (10#16).toNat < 11 ∧ 11 ≤ (11#16).toNat := by decide
theorem test_witness_rx_first_and_final : clean.rx.body = false ∧ (receiving [0x01]).rx.body = true := by decide
theorem test_witness_rx_inner_cases :
    ((receiving [0x01]).rx.body = true ∧ (receiving [0x01]).rx.mode = false) ∧
      ((descaping true [0x01]).rx.body = true ∧ (descaping true [0x01]).rx.mode = true ∧
        (descaping true [0x01]).rx.dscEsc = true) ∧
      ((descaping false [0x01]).rx.body = true ∧ (descaping false [0x01]).rx.mode = true ∧
        (descaping false [0x01]).rx.dscEsc = false) := by decide
theorem test_witness_rx_mode : (∃ t, exec (.rxByte 0x00#8 false) (receiving [0x01]) = .next t) := ⟨_, rfl⟩
/-- R111's example: the pair (0x03, 0x07) stores 0x04 with an error; the hypotheses of R109's last two clauses. -/
theorem test_witness_ill_formed_pair :
    0x07#8 ∉ [0x04#8, 0x05#8, 0x06#8] ∧ 0x02#8 ∈ [0x01#8, 0x02#8] ∧
      unstuff [0x01, 0x03, 0x07, 0x02] = ([0x01, 0x04, 0x02], true) := by decide
theorem test_witness_rxFrame_fits :
    (List.replicate 11 0x10#8) ≠ [] ∧ clean.rx.body = false ∧
      (rxframeOf (List.replicate 11 0x10#8) clean.unstuffEn).1.length ≤ clean.params.maxRx := by decide
theorem test_witness_rxFrame_descaped :
    (rxframeOf [0x01, 0x03, 0x04, 0x02] (clean.withUnstuffEn true).unstuffEn) = ([0x01, 0x01, 0x02], false) ∧
      (rxframeOf [0x01, 0x03, 0x07, 0x02] (clean.withUnstuffEn true).unstuffEn).2 = true := by decide
theorem test_witness_overlong :
    clean.rx.body = false ∧ clean.params.maxRx < (rxframeOf (List.replicate 12 0x10#8) clean.unstuffEn).1.length := by decide
theorem test_witness_no_escape : ∀ i, i < 4 → 1 ≤ i → i + 2 ≤ 4 → ([0x03, 0x01, 0x02, 0x03] : List Byte)[i]? ≠ some 0x03#8 := by
  decide

/-- The reason, result kind and validity that the last byte `d` of a frame leaves. -/
def completion (d : Byte) (s : State) : Option (Reason × Kind × Bool) :=
  (after (exec (.rxByte d true) s)).map fun t => (t.res.reason, t.res.kind, t.res.valid)

/-- One frame for each REASON (V-RX-11, 15, 16, 17, 18, 21, 26). -/
theorem test_witness_reasons :
    completion 0x02 (receiving [0x01, 0x00, 0x00, 0x04]) = some (.short, .none, false) ∧
    completion 0x02 (receiving [0x00, 0x00, 0x00, 0x04, 0xE1, 0x55, 0x0C]) = some (.badStx, .none, false) ∧
    completion 0x03 (receiving [0x01, 0x00, 0x00, 0x04, 0xE1, 0x55, 0x0C]) = some (.badEtx, .none, false) ∧
    completion 0x02 (receiving [0x01, 0x00, 0x00, 0x05, 0xE1, 0x55, 0x0C]) = some (.badClass, .none, false) ∧
    completion 0x02 (receiving [0x01, 0x00, 0x00, 0x04, 0xE1, 0xAA, 0x0C]) = some (.badStatus, .none, false) ∧
    completion 0x02 (descaping true [0x01, 0x00, 0x00, 0x04, 0xE1, 0x55, 0x0C]) = some (.escError, .none, false) ∧
    completion 0x02 (receiving (List.replicate 11 0x01)) = some (.rxOverflow, .none, false) := by decide
/-- Completions with 2, 3, 4 and 5 bytes stored: where the header fields begin to be parsed. -/
theorem test_witness_header_fields :
    ([[0x01], [0x01, 0x34], [0x01, 0x34, 0x12], [0x01, 0x34, 0x12, 0x04]].map fun f =>
      (after (exec (.rxByte 0x56 true) (receiving f))).map fun t => (t.res.lenf, t.res.cmd)) =
    [some (0#16, 0#8), some (0x5634#16, 0#8), some (0x1234#16, 0#8), some (0x1234#16, 0x56#8)] := by decide
/-- Level replies with N = 8 and N = 7 (V-RX-3, V-RX-4, V-RX-7). -/
theorem test_witness_levels :
    completion 0x02 (receiving [0x01, 0x00, 0x00, 0x04, 0xE1, 0x55, 0x0C]) = some (.ok, .voltage, true) ∧
    completion 0x02 (receiving [0x01, 0x00, 0x00, 0x04, 0xE1, 0x55]) = some (.payloadShort, .none, true) ∧
    completion 0x02 (receiving [0x01, 0x00, 0x00, 0x04, 0xE2, 0x55, 0x80]) = some (.ok, .lightlevel, true) ∧
    completion 0x02 (receiving [0x01, 0x00, 0x00, 0x04, 0xE2, 0x55]) = some (.payloadShort, .none, true) := by decide
/-- Alarm replies with N = 11 (W1, above) and N = 10 (V-RX-8). -/
theorem test_witness_alarm_short :
    completion 0x02 (receiving [0x01, 0x00, 0x00, 0x04, 0xE3, 0x55, 0x16, 0x1E, 0x01]) =
      some (.payloadShort, .none, true) := by decide
/-- Raw replies, the empty slice included (V-RX-5, V-RX-6). -/
theorem test_witness_raw :
    completion 0x02 (receiving [0x01, 0x00, 0x00, 0x04, 0xE4, 0x55, 0xFF, 0x80, 0x00]) = some (.ok, .colorRaw, true) ∧
    completion 0x02 (receiving [0x01, 0x00, 0x00, 0x04, 0x5A, 0x55]) = some (.ok, .raw, true) := by decide

theorem test_witness_err_causes :
    ((clean.withFetchWord 16 0x5000).inbox = .op 0x5000#16 :: [] ∧ decodeWord 0x5000#16 = .ok .txEnd ∧
      (clean.withFetchWord 16 0x5000).tx.active = false) ∧
      (setErr .txSeq clean).inbox.head? ≠ some .rst ∧ (setErr .txSeq clean).err.get .txSeq = true := by decide
theorem test_witness_frames : (∃ t, exec .txEnd (collecting 0) = .next t) ∧ (∃ t, exec (.cfgWr true) clean = .next t) :=
  ⟨⟨_, rfl⟩, ⟨_, rfl⟩⟩
/-- The third clause of TxAndRxPathsAreIndependent: TX_END outside collection records an error. -/
theorem test_witness_err_changes : (after (exec .txEnd clean)).map (fun t => decide (t.err ≠ clean.err)) = some true := by
  decide
/-- CompletionWritesEveryResult: a completion changes the results (its second part), of a valid frame and of another. -/
theorem test_witness_completion_changes :
    (after (exec (.rxByte 0x02 true) (receiving [0x01, 0x00, 0x00, 0x04, 0xE1, 0x55, 0x0C]))).map
      (fun t => (t.res.valid, decide (t.res ≠ clean.res))) = some (true, true) ∧
    (after (exec (.rxByte 0x02 true) clean)).map
      (fun t => (t.res.valid, decide (t.res ≠ clean.res))) = some (false, true) := by decide
theorem test_witness_results_hold :
    (clean.withInbox [.op 0x7055#16]).inbox.head? ≠ some .rst ∧ decodeWord 0x7055#16 ≠ .ok (.rxByte 0x55#8 true) ∧
      (clean.withInbox [.op 0x2010#16]).rx.body = false ∧ decodeWord 0x2010#16 ≠ .ok .rxAbort := by decide
theorem test_witness_register_hole : 0x15 ≤ (0x15#5).toNat ∧ 0x15 ≤ (0x1F#5).toNat := by decide
theorem test_witness_ports :
    ((1#16).toNat < (receiving [0x01, 0x02]).rx.len.toNat ∧ (receiving [0x01, 0x02]).rx.len.toNat ≤ (2#16).toNat) ∧
      ((2#16).toNat < (collecting 3).tx.plen.toNat ∧ (collecting 3).tx.plen.toNat ≤ (3#16).toNat) := by decide
/-- The ports in their four cases, the first two with a byte stored there. -/
theorem test_ports_read :
    rxbufRd (receiving [0x01, 0x02]) 1#16 0x99#8 = 0x02#8 ∧ rxbufRd (receiving [0x01, 0x02]) 2#16 0x99#8 = 0x99#8 ∧
      txbufRd ((collecting 1).withTx { (collecting 1).tx with buf := [(0, 0x7F#8)] }) 0#16 0x99#8 = 0x7F#8 ∧
      txbufRd (collecting 3) 3#16 0x99#8 = 0x99#8 := by decide

/-- A state inside a received frame, with one byte stored, meets the invariant. -/
theorem test_witness_inv : (receiving [0x01#8]).Inv := by
  refine ⟨⟨by decide, by intro c hc; exact absurd hc (by simp [receiving, clean, State.clean, TxPath.reset]), by decide,
      filled_zero _, by decide⟩, ⟨by decide, ?_, by decide, ?_, by decide, by decide, by decide, by decide⟩, ?_, by decide⟩
  · unfold Memory.Within; decide
  · intro i hi
    have hi : i < 1 := hi
    interval_cases i; decide
  · refine ⟨fun _ => rfl, by decide, by decide, ?_⟩
    exact ⟨rfl, rfl, rfl, rfl, rfl, rfl, rfl⟩
theorem test_witness_inv_step : ∃ t, step ((receiving [0x01#8]).withInbox [.op 0x7102#16]) = .next t := ⟨_, rfl⟩

/-- Two states that differ in a byte at RX_LEN and in one above TX_PLEN. -/
theorem test_witness_sameMeaning :
    SameMeaning (receiving [0x01#8])
      { receiving [0x01#8] with
        rx := { (receiving [0x01#8]).rx with buf := [(0, 0x01#8), (1, 0x77#8)] }
        tx := { (receiving [0x01#8]).tx with buf := [(5, 0x66#8)] } } := by
  refine ⟨rfl, ?_, ?_⟩
  · intro i hi
    exact absurd hi (Nat.not_lt_zero _)
  · intro i hi
    have hi : i < 1 := hi
    interval_cases i
    rfl

end Sys2Proof.Tests
end

/-! The parameters are the same after every operation and every step
(00_scope.md R8, R9; 10_state.md R46). -/

namespace Sys2Proof.Machine

/-! ### What the operations leave of the parameters: read off each operation's frame equation -/

@[simp] theorem beginFrame_params (c : Byte) (s : State) : (beginFrame c s).params = s.params := by
  rw [beginFrame_eq]

@[simp] theorem appendPayload_params (p : Byte) (s : State) : (appendPayload p s).params = s.params := by
  rw [appendPayload_eq]

@[simp] theorem endFrame_params (s : State) : (endFrame s).params = s.params := by
  rw [endFrame_eq]

@[simp] theorem escapeByte_params (d : Byte) (l : Bool) (s : State) : (escapeByte d l s).params = s.params := by
  rw [escapeByte_eq]

@[simp] theorem receiveByte_params (d : Byte) (l : Bool) (s : State) : (receiveByte d l s).params = s.params := by
  rw [receiveByte_eq, withRes_params, withRx_params]

/-! ### What the other events leave of them -/

@[simp] theorem acceptIllegal_params (s : State) : (acceptIllegal s).params = s.params := setErr_params s .illegal

@[simp] theorem assertReset_params (s : State) : (assertReset s).params = s.params := rfl

/-! ### Operations and steps -/

/-- No operation writes the parameters. -/
theorem exec_params {i : Instr} {s t : State} (h : exec i s = .next t) : t.params = s.params := by
  cases i with
  | nop => cases h; rfl
  | csumClr => cases h; exact withCsum_params ..
  | csumAdd d => cases h; exact withCsum_params ..
  | txBegin c => cases h; exact beginFrame_params c s
  | txData p => cases h; exact appendPayload_params p s
  | txEnd => cases h; exact endFrame_params s
  | escByte d l => cases h; exact escapeByte_params d l s
  | rxByte d l => cases h; exact receiveByte_params d l s
  | rxAbort => cases h; exact withRx_params ..
  | cfgWr b => cases h; exact withUnstuffEn_params ..

/-- Whatever the host does next, the parameters stay: consuming its event keeps them, and so does what follows. -/
theorem step_params {s t : State} (h : step s = .next t) : t.params = s.params := by
  obtain ⟨-, rfl⟩ | ⟨_, rest, i, -, -, hexec⟩ | ⟨_, rest, _, -, -, rfl⟩ | ⟨rest, -, rfl⟩ | ⟨rest, -, rfl⟩ :=
    step_cases h
  · rfl
  · exact (exec_params hexec).trans (withInbox_params s rest)
  · exact (acceptIllegal_params _).trans (withInbox_params s rest)
  · exact (assertReset_params _).trans (withInbox_params s rest)
  · exact (takePair_params _).trans (withInbox_params s rest)

/-- Settles O10, by the cases of a step and, for a legal word, the cases of its operation. -/
theorem parametersNeverChange : Obligations.ParametersNeverChange := fun _ _ => step_params

end Sys2Proof.Machine

/-! The state elements: which operation writes which element, the transmit stream, the read ports
(10_state.md). -/

namespace Sys2Proof.Machine

variable (s : State)

/-! ### What each operation leaves unchanged: read off its frame equation -/

@[simp] theorem beginFrame_inbox (c : Byte) : (beginFrame c s).inbox = s.inbox := by rw [beginFrame_eq]
@[simp] theorem beginFrame_unstuffEn (c : Byte) : (beginFrame c s).unstuffEn = s.unstuffEn := by rw [beginFrame_eq]
@[simp] theorem beginFrame_csum (c : Byte) : (beginFrame c s).csum = s.csum := by rw [beginFrame_eq]
@[simp] theorem beginFrame_escBody (c : Byte) : (beginFrame c s).escBody = s.escBody := by rw [beginFrame_eq]
@[simp] theorem beginFrame_rx (c : Byte) : (beginFrame c s).rx = s.rx := by rw [beginFrame_eq]
@[simp] theorem beginFrame_res (c : Byte) : (beginFrame c s).res = s.res := by rw [beginFrame_eq]
@[simp] theorem beginFrame_txq (c : Byte) : (beginFrame c s).txq = s.txq := by rw [beginFrame_eq]
@[simp] theorem beginFrame_emitted (c : Byte) : (beginFrame c s).emitted = s.emitted := by rw [beginFrame_eq]

@[simp] theorem appendPayload_inbox (p : Byte) : (appendPayload p s).inbox = s.inbox := by rw [appendPayload_eq]
@[simp] theorem appendPayload_unstuffEn (p : Byte) : (appendPayload p s).unstuffEn = s.unstuffEn := by
  rw [appendPayload_eq]
@[simp] theorem appendPayload_csum (p : Byte) : (appendPayload p s).csum = s.csum := by rw [appendPayload_eq]
@[simp] theorem appendPayload_escBody (p : Byte) : (appendPayload p s).escBody = s.escBody := by rw [appendPayload_eq]
@[simp] theorem appendPayload_rx (p : Byte) : (appendPayload p s).rx = s.rx := by rw [appendPayload_eq]
@[simp] theorem appendPayload_res (p : Byte) : (appendPayload p s).res = s.res := by rw [appendPayload_eq]
@[simp] theorem appendPayload_txq (p : Byte) : (appendPayload p s).txq = s.txq := by rw [appendPayload_eq]
@[simp] theorem appendPayload_emitted (p : Byte) : (appendPayload p s).emitted = s.emitted := by rw [appendPayload_eq]

@[simp] theorem endFrame_inbox : (endFrame s).inbox = s.inbox := by rw [endFrame_eq]
@[simp] theorem endFrame_unstuffEn : (endFrame s).unstuffEn = s.unstuffEn := by rw [endFrame_eq]
@[simp] theorem endFrame_escBody : (endFrame s).escBody = s.escBody := by rw [endFrame_eq]
@[simp] theorem endFrame_rx : (endFrame s).rx = s.rx := by rw [endFrame_eq]
@[simp] theorem endFrame_res : (endFrame s).res = s.res := by rw [endFrame_eq]

@[simp] theorem escapeByte_inbox (d : Byte) (l : Bool) : (escapeByte d l s).inbox = s.inbox := by rw [escapeByte_eq]
@[simp] theorem escapeByte_unstuffEn (d : Byte) (l : Bool) : (escapeByte d l s).unstuffEn = s.unstuffEn := by
  rw [escapeByte_eq]
@[simp] theorem escapeByte_err (d : Byte) (l : Bool) : (escapeByte d l s).err = s.err := by rw [escapeByte_eq]
@[simp] theorem escapeByte_csum (d : Byte) (l : Bool) : (escapeByte d l s).csum = s.csum := by rw [escapeByte_eq]
@[simp] theorem escapeByte_tx (d : Byte) (l : Bool) : (escapeByte d l s).tx = s.tx := by rw [escapeByte_eq]
@[simp] theorem escapeByte_rx (d : Byte) (l : Bool) : (escapeByte d l s).rx = s.rx := by rw [escapeByte_eq]
@[simp] theorem escapeByte_res (d : Byte) (l : Bool) : (escapeByte d l s).res = s.res := by rw [escapeByte_eq]

@[simp] theorem receiveByte_inbox (d : Byte) (l : Bool) : (receiveByte d l s).inbox = s.inbox := by cases l <;> rfl
@[simp] theorem receiveByte_unstuffEn (d : Byte) (l : Bool) : (receiveByte d l s).unstuffEn = s.unstuffEn := by
  cases l <;> rfl
@[simp] theorem receiveByte_err (d : Byte) (l : Bool) : (receiveByte d l s).err = s.err := by cases l <;> rfl
@[simp] theorem receiveByte_csum (d : Byte) (l : Bool) : (receiveByte d l s).csum = s.csum := by cases l <;> rfl
@[simp] theorem receiveByte_tx (d : Byte) (l : Bool) : (receiveByte d l s).tx = s.tx := by cases l <;> rfl
@[simp] theorem receiveByte_escBody (d : Byte) (l : Bool) : (receiveByte d l s).escBody = s.escBody := by
  cases l <;> rfl
@[simp] theorem receiveByte_txq (d : Byte) (l : Bool) : (receiveByte d l s).txq = s.txq := by cases l <;> rfl
@[simp] theorem receiveByte_emitted (d : Byte) (l : Bool) : (receiveByte d l s).emitted = s.emitted := by
  cases l <;> rfl

/-! ### What the operations of the transmit path can do (R82–R84), and what they leave of it -/

/-- TX_BEGIN records an open frame in TX_SEQ. -/
theorem beginFrame_err (c : Byte) :
    (beginFrame c s).err = if s.tx.active then s.err.set .txSeq else s.err := by
  unfold beginFrame; split <;> rfl

@[simp] theorem beginFrame_tx (c : Byte) :
    (beginFrame c s).tx = { s.tx with active := true, bad := false, cmd := c, plen := 0x0000#16 } := by
  unfold beginFrame; split <;> rfl

/-- Everything TX_DATA can do: only TX_SEQ with no frame open, a byte appended with room, the frame marked bad
without. -/
theorem appendPayload_cases (p : Byte) :
    (s.tx.active = false ∧ appendPayload p s = setErr .txSeq s) ∨
    (s.tx.active = true ∧ s.tx.plen.toNat < s.params.maxPayload ∧ appendPayload p s =
      s.withTx { s.tx with buf := s.tx.buf.writeByte s.tx.plen.toNat p, plen := s.tx.plen + 1#16 }) ∨
    (s.tx.active = true ∧ s.params.maxPayload ≤ s.tx.plen.toNat ∧
      appendPayload p s = setErr .txOvf (s.withTx { s.tx with bad := true })) := by
  cases ha : s.tx.active with
  | false => exact .inl ⟨rfl, by simp [appendPayload, ha]⟩
  | true =>
    by_cases hroom : s.tx.plen.toNat < s.params.maxPayload
    · exact .inr (.inl ⟨rfl, hroom, by simp [appendPayload, ha, hroom]⟩)
    · exact .inr (.inr ⟨rfl, Nat.le_of_not_lt hroom, by simp [appendPayload, ha, hroom]⟩)

/-- Everything TX_END can do: only a flag with no frame open or the escaper busy, a bad frame dropped, a good one
sent. -/
theorem endFrame_cases :
    (s.tx.active = false ∧ endFrame s = setErr .txSeq s) ∨
    (s.tx.active = true ∧ s.escBody = true ∧ endFrame s = setErr .escBusy s) ∨
    (s.tx.active = true ∧ s.escBody = false ∧ s.tx.bad = true ∧
      endFrame s = s.withTx { s.tx with active := false, bad := false }) ∨
    (s.tx.active = true ∧ s.escBody = false ∧ s.tx.bad = false ∧ endFrame s = sendFrame s) := by
  cases ha : s.tx.active with
  | false => exact .inl ⟨rfl, by simp [endFrame, ha]⟩
  | true =>
    cases he : s.escBody with
    | true => exact .inr (.inl ⟨rfl, rfl, by simp [endFrame, ha, he]⟩)
    | false =>
      cases hb : s.tx.bad with
      | true => exact .inr (.inr (.inl ⟨rfl, rfl, rfl, by simp [endFrame, ha, he, hb]⟩))
      | false => exact .inr (.inr (.inr ⟨rfl, rfl, rfl, by simp [endFrame, ha, he, hb]⟩))

@[simp] theorem sendFrame_err : (sendFrame s).err = s.err := rfl
@[simp] theorem sendFrame_tx : (sendFrame s).tx = { s.tx with active := false } := rfl

@[simp] theorem appendPayload_tx_active (p : Byte) : (appendPayload p s).tx.active = s.tx.active := by
  obtain ⟨-, h⟩ | ⟨-, -, h⟩ | ⟨-, -, h⟩ := appendPayload_cases s p <;> rw [h] <;> rfl

@[simp] theorem appendPayload_tx_cmd (p : Byte) : (appendPayload p s).tx.cmd = s.tx.cmd := by
  obtain ⟨-, h⟩ | ⟨-, -, h⟩ | ⟨-, -, h⟩ := appendPayload_cases s p <;> rw [h] <;> rfl

/-- TX_END writes TX_ACTIVE and TX_BAD, the rest of the transmit path stays. -/
theorem endFrame_tx : (endFrame s).tx = { s.tx with active := (endFrame s).tx.active, bad := (endFrame s).tx.bad } := by
  obtain ⟨-, h⟩ | ⟨-, -, h⟩ | ⟨-, -, -, h⟩ | ⟨-, -, -, h⟩ := endFrame_cases s <;> rw [h] <;> rfl

@[simp] theorem endFrame_tx_cmd : (endFrame s).tx.cmd = s.tx.cmd := by rw [endFrame_tx]
@[simp] theorem endFrame_tx_plen : (endFrame s).tx.plen = s.tx.plen := by rw [endFrame_tx]
@[simp] theorem endFrame_tx_buf : (endFrame s).tx.buf = s.tx.buf := by rw [endFrame_tx]

theorem beginFrame_err_get {x : ErrFlag} (c : Byte) (hx : x ≠ .txSeq) :
    (beginFrame c s).err.get x = s.err.get x := by
  rw [beginFrame_err]
  split
  · exact errFlags_set_get_of_ne _ _ _ hx
  · rfl

/-- TX_DATA sets no flag but TX_SEQ and TX_OVF. -/
theorem appendPayload_err_get {x : ErrFlag} (p : Byte) (hx : x ≠ .txSeq) (hx' : x ≠ .txOvf) :
    (appendPayload p s).err.get x = s.err.get x := by
  obtain ⟨-, h⟩ | ⟨-, -, h⟩ | ⟨-, -, h⟩ := appendPayload_cases s p <;> rw [h]
  · exact errFlags_set_get_of_ne _ _ _ hx
  · rfl
  · exact errFlags_set_get_of_ne _ _ _ hx'

/-- TX_END sets no flag but TX_SEQ and ESC_BUSY. -/
theorem endFrame_err_get {x : ErrFlag} (hx : x ≠ .txSeq) (hx' : x ≠ .escBusy) :
    (endFrame s).err.get x = s.err.get x := by
  obtain ⟨-, h⟩ | ⟨-, -, h⟩ | ⟨-, -, -, h⟩ | ⟨-, -, -, h⟩ := endFrame_cases s <;> rw [h]
  · exact errFlags_set_get_of_ne _ _ _ hx
  · exact errFlags_set_get_of_ne _ _ _ hx'
  · rfl
  · rfl

@[simp] theorem beginFrame_err_illegal (c : Byte) : (beginFrame c s).err.illegal = s.err.illegal :=
  beginFrame_err_get s (x := .illegal) c (by decide)
@[simp] theorem beginFrame_err_txOvf (c : Byte) : (beginFrame c s).err.txOvf = s.err.txOvf :=
  beginFrame_err_get s (x := .txOvf) c (by decide)
@[simp] theorem beginFrame_err_escBusy (c : Byte) : (beginFrame c s).err.escBusy = s.err.escBusy :=
  beginFrame_err_get s (x := .escBusy) c (by decide)
@[simp] theorem appendPayload_err_illegal (p : Byte) : (appendPayload p s).err.illegal = s.err.illegal :=
  appendPayload_err_get s (x := .illegal) p (by decide) (by decide)
@[simp] theorem appendPayload_err_escBusy (p : Byte) : (appendPayload p s).err.escBusy = s.err.escBusy :=
  appendPayload_err_get s (x := .escBusy) p (by decide) (by decide)
@[simp] theorem endFrame_err_illegal : (endFrame s).err.illegal = s.err.illegal :=
  endFrame_err_get s (x := .illegal) (by decide) (by decide)
@[simp] theorem endFrame_err_txOvf : (endFrame s).err.txOvf = s.err.txOvf :=
  endFrame_err_get s (x := .txOvf) (by decide) (by decide)

/-! ### The three positions of a received byte (R105) -/

theorem receivePath_of_idle {p : RxPath} (cap : Nat) (u : Bool) (d : Byte) (l : Bool) (hb : p.body = false) :
    receivePath cap u d l p = receiveFirst cap u d l p := by
  simp [receivePath, hb]

theorem receivePath_of_last {p : RxPath} (cap : Nat) (u : Bool) (d : Byte) (hb : p.body = true) :
    receivePath cap u d true p = receiveFinal cap d p := by
  simp [receivePath, hb]

theorem receivePath_of_inner {p : RxPath} (cap : Nat) (u : Bool) (d : Byte) (hb : p.body = true) :
    receivePath cap u d false p = receiveInner cap d p := by
  simp [receivePath, hb]

/-- Inside a frame RX_BYTE leaves RX_MODE. -/
theorem receivePath_mode_of_body {p : RxPath} (cap : Nat) (u : Bool) (d : Byte) (l : Bool) (hb : p.body = true) :
    (receivePath cap u d l p).mode = p.mode := by
  cases l with
  | true => simp [receivePath_of_last cap u d hb, receiveFinal]
  | false =>
    rw [receivePath_of_inner cap u d hb, receiveInner]
    repeat' split
    all_goals simp

/-! ### What is emitted: the same pairs on TXQ and in the record -/

/-- Every case of ESC_BYTE appends: one pair, or two for an escaped byte. -/
theorem escapeByte_appends (d : Byte) (l : Bool) :
    ∃ new, (escapeByte d l s).txq = s.txq ++ new ∧ (escapeByte d l s).emitted = s.emitted ++ new := by
  unfold escapeByte
  split
  · exact ⟨[⟨d, l⟩], rfl, rfl⟩
  · split
    · exact ⟨[⟨d, true⟩], rfl, rfl⟩
    · split
      · exact ⟨[⟨esc, false⟩, ⟨d + 3#8, false⟩], by simp, by simp⟩
      · exact ⟨[⟨d, false⟩], rfl, rfl⟩

/-- TX_END appends the frame it sends, or nothing. -/
theorem endFrame_appends :
    ∃ new, (endFrame s).txq = s.txq ++ new ∧ (endFrame s).emitted = s.emitted ++ new := by
  obtain ⟨-, h⟩ | ⟨-, -, h⟩ | ⟨-, -, -, h⟩ | ⟨-, -, -, h⟩ := endFrame_cases s <;> rw [h]
  case inr.inr.inr => exact ⟨_, rfl, rfl⟩
  all_goals exact ⟨[], by simp⟩

end Sys2Proof.Machine

namespace Sys2Proof.Machine

/-- Settles O51, operation by operation, from what each leaves unchanged. -/
theorem eachElementHasItsWriters : Obligations.EachElementHasItsWriters := by
  intro i s t h
  cases i with
  | nop => cases h; simp
  | csumClr => cases h; simp
  | csumAdd d => cases h; simp
  | txBegin c => cases h; simp
  | txData p => cases h; simp
  | txEnd => cases h; simp
  | escByte d l => cases h; simp
  | rxByte d l =>
    cases h
    cases l with
    | true => simpa using fun hb => receivePath_mode_of_body _ _ d true hb
    | false => simpa [receiveByte_res_of_not_last] using fun hb => receivePath_mode_of_body _ _ d false hb
  | rxAbort => cases h; simp
  | cfgWr b => cases h; simp

/-- A legal word appends to TXQ, and to the record of emitted pairs the same. -/
theorem exec_appends {i : Instr} {s t : State} (h : exec i s = .next t) :
    ∃ new, t.txq = s.txq ++ new ∧ t.emitted = s.emitted ++ new := by
  cases i with
  | escByte d l => cases h; exact escapeByte_appends s d l
  | txEnd => cases h; exact endFrame_appends s
  | _ => cases h; exact ⟨[], by simp⟩

/-- Settles O9, by the cases of a step. -/
theorem txqGrowsByEmitShrinksByHost : Obligations.TxqGrowsByEmitShrinksByHost := by
  intro s t h
  obtain ⟨hin, rfl⟩ | ⟨w, rest, i, hin, -, hexec⟩ | ⟨w, rest, r, hin, -, rfl⟩ | ⟨rest, hin, rfl⟩ | ⟨rest, hin, rfl⟩ :=
    step_cases h <;> rw [hin]
  · simpa using exec_appends hexec
  · exact ⟨[], by simp [acceptIllegal]⟩
  · exact ⟨rfl, rfl⟩
  · exact ⟨by simp, rfl⟩

/-- Settles O6: the first word pending is the one the step decodes. -/
theorem stepRunsDecodedWord : Obligations.StepRunsDecodedWord := by
  intro s w rest i hin hdec
  simp [step, nextEvent, hin, hdec]

/-! ### Registers as numbers (R43) -/

/-- The number whose binary digits are the flags, the head lowest. -/
def flagsValue : List Bool → Nat
  | [] => 0
  | b :: bs => b.toNat + 2 * flagsValue bs

theorem flagsValue_lt (bs : List Bool) : flagsValue bs < 2 ^ bs.length := by
  induction bs with
  | nil => decide
  | cons b bs ih =>
    have := Bool.toNat_lt b
    rw [flagsValue, List.length_cons, Nat.pow_succ]
    omega

/-- Up to 16 flags fit the register: none is shifted out. -/
theorem toNat_packFlags {bs : List Bool} (h : bs.length ≤ 16) : (packFlags bs).toNat = flagsValue bs := by
  induction bs with
  | nil => rfl
  | cons b bs ih =>
    rw [List.length_cons] at h
    have hvalue := ih (by omega)
    have hlt : flagsValue bs < 2 ^ 15 :=
      Nat.lt_of_lt_of_le (flagsValue_lt bs) (Nat.pow_le_pow_right (by decide) (by omega))
    have hshift : (packFlags bs <<< 1).toNat = 2 ^ 1 * flagsValue bs := by
      rw [BitVec.toNat_shiftLeft, Nat.shiftLeft_eq, hvalue]; omega
    have hbit : (if b then 0x0001#16 else 0x0000#16).toNat = b.toNat := by cases b <;> rfl
    rw [packFlags, BitVec.toNat_or, hshift, hbit, ← Nat.two_pow_add_eq_or_of_lt (Bool.toNat_lt b), flagsValue]
    omega

theorem toNat_zext16 (b : Byte) : (zext16 b).toNat = b.toNat :=
  BitVec.toNat_setWidth_of_le (by decide)

/-- The register map ends at 0x14. -/
theorem readReg_of_unlisted (s : State) {n : BitVec 5} (h : 0x15 ≤ n.toNat) : readReg s n = 0x0000#16 := by
  have := n.isLt
  interval_cases hn : n.toNat <;> simp [readReg, hn]

/-- REASON reads as the number of its code, by name (R128). -/
theorem readReg_reason (s : State) : (s.res.reason, readReg s 0x0A#5) ∈
    [(.ok, 0#16), (.short, 1#16), (.badStx, 2#16), (.badEtx, 3#16), (.badClass, 4#16), (.badStatus, 5#16),
      (.rxOverflow, 6#16), (.escError, 7#16), (.payloadShort, 8#16)] := by
  cases hr : s.res.reason <;> simp [readReg, hr, Reason.code]

/-- KIND reads as the number of its code, by name (R130). -/
theorem readReg_kind (s : State) : (s.res.kind, readReg s 0x0B#5) ∈
    [(.none, 0#16), (.lightlevel, 1#16), (.voltage, 2#16), (.alarm, 3#16), (.colorRaw, 4#16), (.raw, 5#16)] := by
  cases hk : s.res.kind <;> simp [readReg, hk, Kind.code]

/-- Settles O55, register by register: packed flags as the number of their bits, bytes and codes widened. -/
theorem registerMap : Obligations.RegisterMap := by
  intro s
  refine ⟨?_, ?_, rfl, ?_, toNat_zext16 _, rfl, ?_, ?_, rfl, ?_, BitVec.toNat_setWidth_of_le (by decide),
    BitVec.toNat_setWidth_of_le (by decide), readReg_reason s, readReg_kind s, toNat_zext16 _, rfl,
    toNat_zext16 _, toNat_zext16 _, toNat_zext16 _, toNat_zext16 _, ?_, rfl, rfl, fun _ => readReg_of_unlisted s⟩
  all_goals simp only [readReg, BitVec.toNat_ofNat, toNat_packFlags, List.length_cons, List.length_nil,
    Nat.reduceAdd, Nat.reduceLeDiff, flagsValue]
  all_goals omega

/-- Settles O56: below the count the port is the frame's or the payload's own byte, elsewhere the draw itself. -/
theorem bufferPortsReadOrDraw : Obligations.BufferPortsReadOrDraw := by
  intro s sel
  refine ⟨fun h draw => ?_, fun h b => ⟨b, if_neg (Nat.not_lt.mpr h)⟩, fun h draw => ?_,
    fun h b => ⟨b, if_neg (Nat.not_lt.mpr h)⟩⟩
  · simp [rxbufRd, rxFrame, h]
  · simp [txbufRd, txPayload, h]

end Sys2Proof.Machine

/-! Every step keeps the invariant (10_state.md R31–R42, 20_memory.md R55): path by path, the results, the stream. -/

namespace Sys2Proof.Machine

/-! ### The transmit path -/

/-- The transmit part of the invariant speaks of the parameters and the transmit path only. -/
theorem txInv_congr {s t : State} (hp : t.params = s.params) (htx : t.tx = s.tx) (h : TxInv s) : TxInv t := by
  simpa only [TxInv, hp, htx] using h

/-- A new frame keeps the buffer; none of its bytes has a meaning yet. -/
theorem txInv_beginFrame {s : State} (c : Byte) (h : TxInv s) : TxInv (beginFrame c s) := by
  obtain ⟨hwf, hwithin, -, -, -⟩ := h
  simp [TxInv, hwf, hwithin, filled_zero]

/-- With room the bytes written grow by one; without, TX_PLEN has reached MAX_PAYLOAD. -/
theorem txInv_appendPayload {s : State} (p : Byte) (h : TxInv s) : TxInv (appendPayload p s) := by
  obtain ⟨-, heq⟩ | ⟨ha, hroom, heq⟩ | ⟨ha, hfull, heq⟩ := appendPayload_cases s p <;> rw [heq]
  · exact txInv_congr rfl rfl h
  · obtain ⟨hwf, hwithin, -, hfilled, hbad⟩ := h
    have hcap := maxPayload_le s.params
    have hlen : (s.tx.plen + 1#16).toNat = s.tx.plen.toNat + 1 := toNat_succ (by omega)
    refine ⟨wf_writeByte _ _ _ hwf, within_writeByte _ _ _ _ hwithin hroom, ?_, ?_, fun hb => ?_⟩
    · rw [withTx_tx, withTx_params, hlen]; exact hroom
    · rw [withTx_tx, hlen]; exact filled_writeByte _ _ _ hfilled
    · have hfull := (hbad hb).2
      omega
  · obtain ⟨hwf, hwithin, hle, hfilled, -⟩ := h
    exact ⟨hwf, hwithin, hle, hfilled, fun _ => ⟨ha, Nat.le_antisymm hle hfull⟩⟩

/-- A frame that is sent was not bad, and one that is dropped is bad no more. -/
theorem txInv_endFrame {s : State} (h : TxInv s) : TxInv (endFrame s) := by
  obtain ⟨-, heq⟩ | ⟨-, -, heq⟩ | ⟨-, -, -, heq⟩ | ⟨-, -, hgood, heq⟩ := endFrame_cases s <;> rw [heq]
  · exact txInv_congr rfl rfl h
  · exact txInv_congr rfl rfl h
  · obtain ⟨hwf, hwithin, hle, hfilled, -⟩ := h
    exact ⟨hwf, hwithin, hle, hfilled, nofun⟩
  · obtain ⟨hwf, hwithin, hle, hfilled, -⟩ := h
    exact ⟨hwf, hwithin, hle, hfilled, fun hb => absurd (hgood.symm.trans hb) nofun⟩

theorem exec_txInv {i : Instr} {s t : State} (h : exec i s = .next t) (hi : TxInv s) : TxInv t := by
  cases i with
  | txBegin c => cases h; exact txInv_beginFrame c hi
  | txData p => cases h; exact txInv_appendPayload p hi
  | txEnd => cases h; exact txInv_endFrame hi
  | _ => exact txInv_congr (exec_params h) (by cases h; simp) hi

/-! ### The receive path -/

/-- `RxInv` as a property of the path and its buffer's capacity. -/
structure RxPath.Inv (cap : Nat) (p : RxPath) : Prop where
  wf : p.buf.wf = true
  within : p.buf.Within cap
  len_le : p.len.toNat ≤ cap
  filled : p.buf.Filled p.len.toNat
  esc_inside : p.dscEsc = true → p.body = true ∧ p.mode = true
  err_mode : p.dscErr = true → p.mode = true
  body_stored : p.body = true → 1 ≤ p.len.toNat
  ovf_full : p.ovf = true → p.len.toNat = cap

theorem rxInv_iff (s : State) : RxInv s ↔ s.rx.Inv s.params.maxRx :=
  ⟨fun ⟨h1, h2, h3, h4, h5, h6, h7, h8⟩ => ⟨h1, h2, h3, h4, h5, h6, h7, h8⟩,
    fun ⟨h1, h2, h3, h4, h5, h6, h7, h8⟩ => ⟨h1, h2, h3, h4, h5, h6, h7, h8⟩⟩

/-- Store (R106) keeps the path's invariant: RX_OVF rises only at a full buffer, RX_LEN only below the capacity. -/
theorem RxPath.Inv.store {cap : Nat} {p : RxPath} (v : Byte) (hc : cap ≤ 65535) (h : p.Inv cap) :
    (store cap v p).Inv cap := by
  by_cases hroom : p.len.toNat < cap
  · have hlen : (p.len + 1#16).toNat = p.len.toNat + 1 := toNat_succ (by omega)
    rw [store_of_lt v hroom]
    exact
      { h with
        wf := wf_writeByte _ _ _ h.wf
        within := within_writeByte _ _ _ _ h.within hroom
        len_le := by rw [hlen]; exact hroom
        filled := by rw [hlen]; exact filled_writeByte _ _ _ h.filled
        body_stored := fun _ => by rw [hlen]; omega
        ovf_full := fun ho => absurd (h.ovf_full ho) (Nat.ne_of_lt hroom) }
  · rw [store_of_le v (Nat.le_of_not_lt hroom)]
    exact { h with ovf_full := fun _ => Nat.le_antisymm h.len_le (Nat.le_of_not_lt hroom) }

/-- An idle path with nothing received meets the invariant, whatever RXBUF holds inside its capacity. -/
theorem RxPath.Inv.emptied {cap : Nat} {p : RxPath} (m : Bool) (h : p.Inv cap) :
    RxPath.Inv cap
      { p with body := false, mode := m, len := 0x0000#16, dscEsc := false, dscErr := false, ovf := false } where
  wf := h.wf
  within := h.within
  len_le := Nat.zero_le _
  filled := filled_zero _
  esc_inside := nofun
  err_mode := nofun
  body_stored := nofun
  ovf_full := nofun

/-- Byte 0 finds room, so a frame that goes on has a byte stored. -/
theorem RxPath.Inv.receiveFirst {cap : Nat} {p : RxPath} (u : Bool) (d : Byte) (l : Bool) (hc : cap ≤ 65535)
    (hpos : 0 < cap) (hb : p.body = false) (h : p.Inv cap) : (receiveFirst cap u d l p).Inv cap := by
  have hempty : RxPath.Inv cap
      { p with mode := u, len := 0x0000#16, dscEsc := false, dscErr := false, ovf := false } := by
    simpa only [hb] using h.emptied u
  have hstored := hempty.store d hc
  refine { hstored with esc_inside := ?_, body_stored := fun _ => ?_ }
  · simp [Machine.receiveFirst]
  · simp [Machine.receiveFirst, Machine.store, hpos]

/-- The final byte takes back a pending 0x03, as an error in RX_MODE 1 only. -/
theorem RxPath.Inv.receiveFinal {cap : Nat} {p : RxPath} (d : Byte) (hc : cap ≤ 65535) (h : p.Inv cap) :
    (receiveFinal cap d p).Inv cap := by
  have hclosed : RxPath.Inv cap { p with dscErr := p.dscErr || (p.mode && p.dscEsc), dscEsc := false } :=
    { h with
      esc_inside := nofun
      err_mode := fun he => by
        rcases Bool.or_eq_true_iff.mp he with he | he
        · exact h.err_mode he
        · exact (Bool.and_eq_true_iff.mp he).1 }
  have hstored := hclosed.store d hc
  exact { hstored with esc_inside := by simp [Machine.receiveFinal], body_stored := nofun }

/-- Inside a frame a 0x03 is pending, and an escape is found ill-formed, in RX_MODE 1 only. -/
theorem RxPath.Inv.receiveInner {cap : Nat} {p : RxPath} (d : Byte) (hc : cap ≤ 65535) (hb : p.body = true)
    (h : p.Inv cap) : (receiveInner cap d p).Inv cap := by
  unfold Machine.receiveInner
  split
  · exact h.store d hc
  next hm =>
    have hm : p.mode = true := by simpa using hm
    split
    · have hstored := h.store (d - 3#8) hc
      exact { hstored with esc_inside := nofun, err_mode := fun _ => (store_mode ..).trans hm }
    · split
      · exact { h with esc_inside := fun _ => ⟨hb, hm⟩ }
      · exact h.store d hc

theorem RxPath.Inv.receivePath {cap : Nat} {p : RxPath} (u : Bool) (d : Byte) (l : Bool) (hc : cap ≤ 65535)
    (hpos : 0 < cap) (h : p.Inv cap) : (receivePath cap u d l p).Inv cap := by
  cases hb : p.body with
  | false => rw [receivePath_of_idle cap u d l hb]; exact h.receiveFirst u d l hc hpos hb
  | true =>
    cases l with
    | true => rw [receivePath_of_last cap u d hb]; exact h.receiveFinal d hc
    | false => rw [receivePath_of_inner cap u d hb]; exact h.receiveInner d hc hb

theorem exec_rxInv {i : Instr} {s t : State} (h : exec i s = .next t) (hi : RxInv s) : RxInv t := by
  rw [rxInv_iff] at hi ⊢
  rw [exec_params h]
  cases i with
  | rxByte d l =>
    cases h
    have hpos := le_maxRx s.params
    rw [receiveByte_rx]
    exact hi.receivePath s.unstuffEn d l (maxRx_le _) (by omega)
  | rxAbort => cases h; exact hi.emptied s.rx.mode
  | _ => cases h; simpa using hi

/-! ### The results -/

/-- What the decoder starts from: the header fields, VALID set, nothing decoded (R120, R131). -/
structure Result.Undecoded (r : Result) : Prop where
  done : r.done = true
  valid : r.valid = true
  reason : r.reason = .ok
  kind : r.kind = .none
  fields : r.level = 0#8 ∧ r.hour = 0#8 ∧ r.minute = 0#8 ∧ r.scene = 0#8 ∧ r.enabled = false ∧
    r.rawOff = 0#16 ∧ r.rawLen = 0#16

theorem clearedResult_undecoded (f : List Byte) (n : Nat) : Result.Undecoded { clearedResult f n with valid := true } :=
  ⟨rfl, rfl, rfl, rfl, rfl, rfl, rfl, rfl, rfl, rfl, rfl⟩

/-- A payload too short for its fields leaves VALID set and no result (R132). -/
theorem Result.Undecoded.inv_payloadShort {r : Result} (h : r.Undecoded) :
    Result.Inv { r with reason := .payloadShort } := by
  obtain ⟨hdone, hvalid, -, hkind, hfields⟩ := h
  simp [Result.Inv, Result.FieldsFitKind, hdone, hvalid, hkind, hfields]

theorem Result.Undecoded.inv_decodeLevel {r : Result} (h : r.Undecoded) (f : List Byte) (n : Nat) {k : Kind}
    (hk : k = .voltage ∨ k = .lightlevel) : (decodeLevel f n k r).Inv := by
  unfold decodeLevel
  split
  · exact h.inv_payloadShort
  · obtain ⟨hdone, hvalid, hreason, -, hfields⟩ := h
    rcases hk with rfl | rfl <;> simp [Result.Inv, Result.FieldsFitKind, hdone, hvalid, hreason, hfields]

theorem Result.Undecoded.inv_decodeAlarm {r : Result} (h : r.Undecoded) (f : List Byte) (n : Nat) :
    (decodeAlarm f n r).Inv := by
  unfold decodeAlarm
  split
  · exact h.inv_payloadShort
  · obtain ⟨hdone, hvalid, hreason, -, hfields⟩ := h
    simp [Result.Inv, Result.FieldsFitKind, hdone, hvalid, hreason, hfields]

theorem Result.Undecoded.inv_decodeRaw {r : Result} (h : r.Undecoded) (n : Nat) {k : Kind}
    (hk : k = .colorRaw ∨ k = .raw) : (decodeRaw n k r).Inv := by
  obtain ⟨hdone, hvalid, hreason, -, hfields⟩ := h
  rcases hk with rfl | rfl <;>
    simp [decodeRaw, Result.Inv, Result.FieldsFitKind, hdone, hvalid, hreason, hfields]

/-- Every arm of the decoder leaves consistent results. -/
theorem Result.Undecoded.inv_decodeFrame {r : Result} (h : r.Undecoded) (p : Params) (f : List Byte) (n : Nat) :
    (decodeFrame p f n r).Inv := by
  unfold decodeFrame
  dsimp only
  split
  · exact h.inv_decodeLevel f n (.inl rfl)
  · split
    · exact h.inv_decodeLevel f n (.inr rfl)
    · split
      · exact h.inv_decodeAlarm f n
      · split
        · exact h.inv_decodeRaw n (.inl rfl)
        · exact h.inv_decodeRaw n (.inr rfl)

/-- PAYLOAD_SHORT is the decoder's word, not a check's (R121, R122). -/
theorem checkFrame_ne_payloadShort (ovf dscErr : Bool) (f : List Byte) (n : Nat) :
    checkFrame ovf dscErr f n ≠ .payloadShort := by
  unfold checkFrame sourceCheck
  repeat' split
  all_goals decide

/-- Every completion leaves consistent results, whatever they were. -/
theorem completedResult_inv (p : Params) (ovf dscErr : Bool) (f : List Byte) (n : Nat) :
    (completedResult p ovf dscErr f n).Inv := by
  by_cases hok : checkFrame ovf dscErr f n = .ok
  · rw [completedResult_of_ok p hok]
    exact (clearedResult_undecoded f n).inv_decodeFrame p f n
  · rw [completedResult_of_ne p hok]
    have hshort := checkFrame_ne_payloadShort ovf dscErr f n
    simp [Result.Inv, Result.FieldsFitKind, clearedResult, Result.reset, hok, hshort]

theorem exec_resInv {i : Instr} {s t : State} (h : exec i s = .next t) (hi : s.res.Inv) : t.res.Inv := by
  cases i with
  | rxByte d l =>
    cases h
    cases l with
    | false => exact hi
    | true => exact completedResult_inv ..
  | _ => cases h; simpa using hi

/-! ### The step -/

/-- TXQ stays the latest pairs emitted when both grow by the same. -/
theorem exec_txq_suffix {i : Instr} {s t : State} (h : exec i s = .next t) (hi : s.txq <:+ s.emitted) :
    t.txq <:+ t.emitted := by
  obtain ⟨new, htxq, hemitted⟩ := exec_appends h
  obtain ⟨taken, htaken⟩ := hi
  exact ⟨taken, by rw [htxq, hemitted, ← htaken, List.append_assoc]⟩

theorem exec_inv {i : Instr} {s t : State} (h : exec i s = .next t) (hi : s.Inv) : t.Inv :=
  let ⟨htx, hrx, hres, htxq⟩ := hi
  ⟨exec_txInv h htx, exec_rxInv h hrx, exec_resInv h hres, exec_txq_suffix h htxq⟩

/-- Reset meets the invariant, whatever the record of the run. -/
theorem assertReset_inv (s : State) : (assertReset s).Inv := by
  refine ⟨?_, ?_, ?_, List.nil_suffix⟩
  · simp [TxInv, assertReset, State.clean, TxPath.reset, Memory.wf, Memory.Within, filled_zero]
  · simp [RxInv, assertReset, State.clean, RxPath.reset, Memory.wf, Memory.Within, filled_zero]
  · simp [Result.Inv, Result.FieldsFitKind, assertReset, State.clean, Result.reset]

/-- Settles O58: the invariant does not speak of the pending events; an operation keeps each of its parts, an illegal
word touches none, reset establishes it, and taking a pair shortens TXQ at its head. -/
theorem stepKeepsInvariant : Obligations.StepKeepsInvariant := by
  intro s t hinv h
  obtain ⟨-, rfl⟩ | ⟨_, rest, i, -, -, hexec⟩ | ⟨_, rest, _, -, -, rfl⟩ | ⟨rest, -, rfl⟩ | ⟨rest, -, rfl⟩ := step_cases h
  · exact hinv
  · exact exec_inv hexec hinv
  · exact hinv
  · exact assertReset_inv _
  · obtain ⟨htx, hrx, hres, htxq⟩ := hinv
    exact ⟨htx, hrx, hres, (List.drop_suffix 1 s.txq).trans htxq⟩

end Sys2Proof.Machine

/-! No operation and no observation depends on a buffer byte without meaning (10_state.md R33, R38): each update takes
two states that differ in such bytes only to two such states. -/

namespace Sys2Proof.Machine

/-! ### Buffers and paths that agree where their bytes have a meaning -/

/-- Two buffers read alike below a length, the free values `free` taken for what they do not list. -/
def Memory.AgreeBelow (free : Nat → Byte) (n : Nat) (m m' : Memory) : Prop :=
  ∀ i, i < n → (m'.readByte i).getD (free i) = (m.readByte i).getD (free i)

theorem agreeBelow_zero (free : Nat → Byte) (m m' : Memory) : Memory.AgreeBelow free 0 m m' :=
  fun _ h => absurd h (Nat.not_lt_zero _)

/-- Writing the same byte at the length to both makes them agree one byte further; it is the only new byte that gains a
meaning. -/
theorem Memory.AgreeBelow.writeByte {free : Nat → Byte} {n : Word} {m m' : Memory} (v : Byte)
    (h : AgreeBelow free n.toNat m m') :
    AgreeBelow free (n + 1#16).toNat (m.writeByte n.toNat v) (m'.writeByte n.toNat v) := by
  intro i hi
  have hstep : (n + 1#16).toNat ≤ n.toNat + 1 := by
    rw [BitVec.toNat_add]; exact Nat.mod_le ..
  by_cases hin : i = n.toNat
  · simp [hin]
  · rw [readByte_writeByte_of_ne _ _ _ _ hin, readByte_writeByte_of_ne _ _ _ _ hin]
    exact h i (by omega)

/-- Transmit paths that differ at most in bytes of TXBUF at and above TX_PLEN. -/
def TxPath.SameMeaning (p q : TxPath) : Prop :=
  ∃ m, q = { p with buf := m } ∧ Memory.AgreeBelow Config.txbufReset p.plen.toNat p.buf m

/-- Receive paths that differ at most in bytes of RXBUF at and above RX_LEN. -/
def RxPath.SameMeaning (p q : RxPath) : Prop :=
  ∃ m, q = { p with buf := m } ∧ Memory.AgreeBelow Config.rxbufReset p.len.toNat p.buf m

/-- `SameMeaning` of states path by path. -/
theorem sameMeaning_iff {s t : State} :
    SameMeaning s t ↔ t = { s with tx := t.tx, rx := t.rx } ∧ s.tx.SameMeaning t.tx ∧ s.rx.SameMeaning t.rx := by
  constructor
  · rintro ⟨heq, htx, hrx⟩
    rw [heq]
    exact ⟨rfl, ⟨_, rfl, htx⟩, ⟨_, rfl, hrx⟩⟩
  · rintro ⟨heq, ⟨m, hm, htx⟩, ⟨n, hn, hrx⟩⟩
    rw [hm, hn] at heq
    rw [heq]
    exact ⟨rfl, htx, hrx⟩

/-! ### What two such states have in common -/

namespace SameMeaning

variable {s t : State}

theorem params_eq (h : SameMeaning s t) : t.params = s.params := by rw [h.1]
theorem inbox_eq (h : SameMeaning s t) : t.inbox = s.inbox := by rw [h.1]
theorem unstuffEn_eq (h : SameMeaning s t) : t.unstuffEn = s.unstuffEn := by rw [h.1]
theorem csum_eq (h : SameMeaning s t) : t.csum = s.csum := by rw [h.1]
theorem escBody_eq (h : SameMeaning s t) : t.escBody = s.escBody := by rw [h.1]
theorem emitted_eq (h : SameMeaning s t) : t.emitted = s.emitted := by rw [h.1]
theorem tx_same (h : SameMeaning s t) : s.tx.SameMeaning t.tx := (sameMeaning_iff.mp h).2.1
theorem rx_same (h : SameMeaning s t) : s.rx.SameMeaning t.rx := (sameMeaning_iff.mp h).2.2
theorem tx_eq (h : SameMeaning s t) : t.tx = { s.tx with buf := t.tx.buf } := by rw [h.1]
theorem rx_eq (h : SameMeaning s t) : t.rx = { s.rx with buf := t.rx.buf } := by rw [h.1]
theorem active_eq (h : SameMeaning s t) : t.tx.active = s.tx.active := by rw [h.tx_eq]
theorem bad_eq (h : SameMeaning s t) : t.tx.bad = s.tx.bad := by rw [h.tx_eq]
theorem cmd_eq (h : SameMeaning s t) : t.tx.cmd = s.tx.cmd := by rw [h.tx_eq]
theorem plen_eq (h : SameMeaning s t) : t.tx.plen = s.tx.plen := by rw [h.tx_eq]
theorem ovf_eq (h : SameMeaning s t) : t.rx.ovf = s.rx.ovf := by rw [h.rx_eq]
theorem dscErr_eq (h : SameMeaning s t) : t.rx.dscErr = s.rx.dscErr := by rw [h.rx_eq]
theorem len_eq (h : SameMeaning s t) : t.rx.len = s.rx.len := by rw [h.rx_eq]

theorem txPayload_eq (h : SameMeaning s t) : txPayload t = txPayload s := txPayload_congr h.plen_eq h.2.1
theorem rxFrame_eq (h : SameMeaning s t) : rxFrame t = rxFrame s := rxFrame_congr h.len_eq h.2.2

/-- No register shows a buffer byte. -/
theorem readReg_eq (h : SameMeaning s t) (n : BitVec 5) : readReg t n = readReg s n := by
  rw [h.1]; rfl

theorem observe_eq (h : SameMeaning s t) : s.observe = t.observe := by
  simp only [State.observe, h.emitted_eq, h.readReg_eq, h.rxFrame_eq, h.txPayload_eq]

/-! ### The named updates -/

theorem withInbox (q : List HostEvent) (h : SameMeaning s t) : SameMeaning (s.withInbox q) (t.withInbox q) :=
  ⟨by rw [h.1]; rfl, h.2⟩
theorem withUnstuffEn (b : Bool) (h : SameMeaning s t) : SameMeaning (s.withUnstuffEn b) (t.withUnstuffEn b) :=
  ⟨by rw [h.1]; rfl, h.2⟩
theorem withCsum (v : Word) (h : SameMeaning s t) : SameMeaning (s.withCsum v) (t.withCsum v) :=
  ⟨by rw [h.1]; rfl, h.2⟩
theorem withEscBody (b : Bool) (h : SameMeaning s t) : SameMeaning (s.withEscBody b) (t.withEscBody b) :=
  ⟨by rw [h.1]; rfl, h.2⟩
theorem withRes (r : Result) (h : SameMeaning s t) : SameMeaning (s.withRes r) (t.withRes r) :=
  ⟨by rw [h.1]; rfl, h.2⟩
theorem setErr (x : ErrFlag) (h : SameMeaning s t) : SameMeaning (setErr x s) (setErr x t) :=
  ⟨by rw [h.1]; rfl, h.2⟩
theorem emitAll (ps : List TxPair) (h : SameMeaning s t) : SameMeaning (emitAll ps s) (emitAll ps t) :=
  ⟨by rw [h.1]; rfl, h.2⟩
theorem emit (b : Byte) (l : Bool) (h : SameMeaning s t) : SameMeaning (emit b l s) (emit b l t) := h.emitAll _
theorem takePair (h : SameMeaning s t) : SameMeaning (takePair s) (takePair t) :=
  ⟨by rw [h.1]; rfl, h.2⟩

theorem withTx {p q : TxPath} (h : SameMeaning s t) (hp : p.SameMeaning q) :
    SameMeaning (s.withTx p) (t.withTx q) :=
  sameMeaning_iff.mpr ⟨by rw [h.1]; rfl, hp, h.rx_same⟩
theorem withRx {p q : RxPath} (h : SameMeaning s t) (hp : p.SameMeaning q) :
    SameMeaning (s.withRx p) (t.withRx q) :=
  sameMeaning_iff.mpr ⟨by rw [h.1]; rfl, h.tx_same, hp⟩

/-- Reset leaves the two equal: no byte has a meaning. -/
theorem assertReset (h : SameMeaning s t) : SameMeaning (assertReset s) (assertReset t) := by
  rw [h.1]
  exact ⟨rfl, fun _ _ => rfl, fun _ _ => rfl⟩

/-! ### The transmit operations and the escaper -/

theorem beginFrame (c : Byte) (h : SameMeaning s t) : SameMeaning (beginFrame c s) (beginFrame c t) := by
  obtain ⟨m, hm, -⟩ := h.tx_same
  have htx : TxPath.SameMeaning { s.tx with active := true, bad := false, cmd := c, plen := 0x0000#16 }
      { t.tx with active := true, bad := false, cmd := c, plen := 0x0000#16 } :=
    ⟨m, by rw [hm], agreeBelow_zero _ _ _⟩
  unfold Machine.beginFrame
  rw [h.active_eq]
  split
  · exact (h.setErr .txSeq).withTx htx
  · exact h.withTx htx

theorem appendPayload (p : Byte) (h : SameMeaning s t) : SameMeaning (appendPayload p s) (appendPayload p t) := by
  obtain ⟨m, hm, hagree⟩ := h.tx_same
  unfold Machine.appendPayload
  rw [h.active_eq, h.plen_eq, h.params_eq, hm]
  split
  · exact h.setErr .txSeq
  · split
    · exact h.withTx ⟨_, rfl, hagree.writeByte p⟩
    · exact SameMeaning.setErr .txOvf (h.withTx ⟨m, rfl, hagree⟩)

/-- The frame sent is built from TX_CMD and the payload. -/
theorem sendFrame (h : SameMeaning s t) : SameMeaning (sendFrame s) (sendFrame t) := by
  obtain ⟨m, hm, hagree⟩ := h.tx_same
  unfold Machine.sendFrame
  rw [h.cmd_eq, h.txPayload_eq]
  exact ((h.withCsum _).emitAll _).withTx ⟨m, by simp [hm], hagree⟩

theorem endFrame (h : SameMeaning s t) : SameMeaning (endFrame s) (endFrame t) := by
  obtain ⟨m, hm, hagree⟩ := h.tx_same
  unfold Machine.endFrame
  rw [h.active_eq, h.escBody_eq, h.bad_eq]
  split
  · exact h.setErr .txSeq
  · split
    · exact h.setErr .escBusy
    · split
      · exact h.withTx ⟨m, by rw [hm], hagree⟩
      · exact h.sendFrame

theorem escapeByte (d : Byte) (l : Bool) (h : SameMeaning s t) : SameMeaning (escapeByte d l s) (escapeByte d l t) := by
  unfold Machine.escapeByte
  rw [h.escBody_eq]
  split
  · exact (h.emit d l).withEscBody _
  · split
    · exact (h.emit d true).withEscBody _
    · split
      · exact (h.emit esc false).emit _ false
      · exact h.emit d false

end SameMeaning

/-! ### The receive path -/

namespace RxPath.SameMeaning

variable {p q : RxPath}

/-- Store appends the same byte to both frames, or drops it in both. -/
theorem store (cap : Nat) (v : Byte) (h : p.SameMeaning q) : (store cap v p).SameMeaning (store cap v q) := by
  obtain ⟨m, rfl, hagree⟩ := h
  unfold Machine.store
  split
  · exact ⟨_, rfl, hagree.writeByte v⟩
  · exact ⟨m, rfl, hagree⟩

theorem receiveFirst (cap : Nat) (u : Bool) (d : Byte) (l : Bool) (h : p.SameMeaning q) :
    (receiveFirst cap u d l p).SameMeaning (receiveFirst cap u d l q) := by
  obtain ⟨m, rfl, -⟩ := h
  have hemptied : RxPath.SameMeaning
      { p with mode := u, len := 0x0000#16, dscEsc := false, dscErr := false, ovf := false }
      { p with mode := u, len := 0x0000#16, dscEsc := false, dscErr := false, ovf := false, buf := m } :=
    ⟨m, rfl, agreeBelow_zero _ _ _⟩
  obtain ⟨m', hm', hagree⟩ := hemptied.store cap d
  exact ⟨m', by rw [Machine.receiveFirst, hm']; rfl, hagree⟩

theorem receiveFinal (cap : Nat) (d : Byte) (h : p.SameMeaning q) :
    (receiveFinal cap d p).SameMeaning (receiveFinal cap d q) := by
  obtain ⟨m, rfl, hagree⟩ := h
  have hclosed : RxPath.SameMeaning
      { p with dscErr := p.dscErr || (p.mode && p.dscEsc), dscEsc := false }
      { p with dscErr := p.dscErr || (p.mode && p.dscEsc), dscEsc := false, buf := m } := ⟨m, rfl, hagree⟩
  obtain ⟨m', hm', hagree'⟩ := hclosed.store cap d
  exact ⟨m', by rw [Machine.receiveFinal, hm']; rfl, hagree'⟩

theorem receiveInner (cap : Nat) (d : Byte) (h : p.SameMeaning q) :
    (receiveInner cap d p).SameMeaning (receiveInner cap d q) := by
  have hstored := h.store cap d
  obtain ⟨m', hm', hagree'⟩ := h.store cap (d - 3#8)
  obtain ⟨m, rfl, hagree⟩ := h
  unfold Machine.receiveInner
  split
  · exact hstored
  · split
    · exact ⟨m', by rw [hm'], hagree'⟩
    · split
      · exact ⟨m, rfl, hagree⟩
      · exact hstored

theorem receivePath (cap : Nat) (u : Bool) (d : Byte) (l : Bool) (h : p.SameMeaning q) :
    (receivePath cap u d l p).SameMeaning (receivePath cap u d l q) := by
  have hbody : q.body = p.body := by obtain ⟨m, rfl, -⟩ := h; rfl
  unfold Machine.receivePath
  rw [hbody]
  split
  · exact h.receiveFirst cap u d l
  · split
    · exact h.receiveFinal cap d
    · exact h.receiveInner cap d

/-- RX_ABORT leaves no byte with a meaning. -/
theorem emptied (h : p.SameMeaning q) : RxPath.SameMeaning
    { p with body := false, len := 0x0000#16, dscEsc := false, dscErr := false, ovf := false }
    { q with body := false, len := 0x0000#16, dscEsc := false, dscErr := false, ovf := false } := by
  obtain ⟨m, rfl, -⟩ := h
  exact ⟨m, rfl, agreeBelow_zero _ _ _⟩

end RxPath.SameMeaning

/-! ### Completion, operations, the step -/

namespace SameMeaning

variable {s t : State}

/-- Complete() reads the frame received and no byte beyond it. -/
theorem complete (h : SameMeaning s t) : SameMeaning (complete s) (complete t) := by
  rw [complete_eq_withRes, complete_eq_withRes, h.params_eq, h.ovf_eq, h.dscErr_eq, h.rxFrame_eq, h.len_eq]
  exact h.withRes _

theorem receiveByte (d : Byte) (l : Bool) (h : SameMeaning s t) :
    SameMeaning (receiveByte d l s) (receiveByte d l t) := by
  have hpath := h.withRx (h.rx_same.receivePath s.params.maxRx s.unstuffEn d l)
  unfold Machine.receiveByte
  rw [h.params_eq, h.unstuffEn_eq]
  split
  · exact hpath.complete
  · exact hpath

/-- Every operation gives both states a next one, and the two differ in bytes without meaning only. -/
theorem exec (i : Instr) (h : SameMeaning s t) :
    ∃ s' t', exec i s = .next s' ∧ exec i t = .next t' ∧ SameMeaning s' t' := by
  cases i with
  | nop => exact ⟨_, _, rfl, rfl, h⟩
  | csumClr => exact ⟨_, _, rfl, rfl, h.withCsum _⟩
  | csumAdd d => exact ⟨_, _, exec_csumAdd d s, exec_csumAdd d t, by rw [h.csum_eq]; exact h.withCsum _⟩
  | txBegin c => exact ⟨_, _, rfl, rfl, h.beginFrame c⟩
  | txData p => exact ⟨_, _, rfl, rfl, h.appendPayload p⟩
  | txEnd => exact ⟨_, _, rfl, rfl, h.endFrame⟩
  | escByte d l => exact ⟨_, _, rfl, rfl, h.escapeByte d l⟩
  | rxByte d l => exact ⟨_, _, rfl, rfl, h.receiveByte d l⟩
  | rxAbort => exact ⟨_, _, rfl, rfl, h.withRx h.rx_same.emptied⟩
  | cfgWr b => exact ⟨_, _, rfl, rfl, h.withUnstuffEn b⟩

/-- The two states hold the same pending events, so both take the same case of the step. -/
theorem step (h : SameMeaning s t) :
    ∃ s' t', step s = .next s' ∧ step t = .next t' ∧ SameMeaning s' t' := by
  unfold Machine.step nextEvent
  rw [h.inbox_eq]
  cases s.inbox with
  | nil => exact ⟨s, t, rfl, rfl, h⟩
  | cons e rest =>
    have hrest := h.withInbox rest
    cases e with
    | op w =>
      cases hdec : decodeWord w with
      | ok i => simpa only [hdec] using hrest.exec i
      | error r => simpa only [hdec] using ⟨_, _, rfl, rfl, hrest.setErr .illegal⟩
    | rst => exact ⟨_, _, rfl, rfl, hrest.assertReset⟩
    | takePair => exact ⟨_, _, rfl, rfl, hrest.takePair⟩

end SameMeaning

/-- Settles O59: what is observed is built from what the two states have in common, and each operation keeps them so. -/
theorem unspecifiedBytesAreNeverRead : Obligations.UnspecifiedBytesAreNeverRead :=
  fun _ _ h => ⟨h.observe_eq, h.step⟩

end Sys2Proof.Machine

/-! The buffers and the fields of a frame: where a byte of TXBUF or RXBUF may change, and the layout of the InnerFrame
(20_memory.md R48, R55; 41_tx_builder.md R85, R86, R90). -/

namespace Sys2Proof.Machine

/-! ### Where a buffer byte may change (R33, R38, R55) -/

/-- A write reaches one index: a byte that changed is the one written. -/
theorem eq_of_readByte_writeByte_ne {m : Memory} {i a : Nat} {v : Byte}
    (h : (m.writeByte i v).readByte a ≠ m.readByte a) : a = i :=
  Decidable.not_imp_comm.mp (readByte_writeByte_of_ne m i a v) h

/-- TX_DATA writes at TX_PLEN, and only with room there. -/
theorem appendPayload_buf_changed {s : State} {p : Byte} {a : Nat}
    (h : (appendPayload p s).tx.buf.readByte a ≠ s.tx.buf.readByte a) :
    a = s.tx.plen.toNat ∧ a < s.params.maxPayload := by
  obtain ⟨-, heq⟩ | ⟨-, hroom, heq⟩ | ⟨-, -, heq⟩ := appendPayload_cases s p <;> rw [heq] at h
  · exact absurd rfl h
  · obtain rfl := eq_of_readByte_writeByte_ne h
    exact ⟨rfl, hroom⟩
  · exact absurd rfl h

/-- Store (R106) writes at RX_LEN, and only with room there. -/
theorem store_buf_changed {cap a : Nat} {v : Byte} {p : RxPath}
    (h : (store cap v p).buf.readByte a ≠ p.buf.readByte a) : a = p.len.toNat ∧ a < cap := by
  by_cases hroom : p.len.toNat < cap
  · rw [store_of_lt v hroom] at h
    obtain rfl := eq_of_readByte_writeByte_ne h
    exact ⟨rfl, hroom⟩
  · rw [store_of_le v (Nat.le_of_not_lt hroom)] at h
    exact absurd rfl h

/-- A byte strictly inside a frame is stored at RX_LEN, if at all. -/
theorem receiveInner_buf_changed {cap a : Nat} {d : Byte} {p : RxPath}
    (h : (receiveInner cap d p).buf.readByte a ≠ p.buf.readByte a) : a = p.len.toNat ∧ a < cap := by
  unfold receiveInner at h
  split at h
  · exact store_buf_changed h
  · split at h
    · exact store_buf_changed h
    · split at h
      · exact absurd rfl h
      · exact store_buf_changed h

/-- A received byte is stored at index 0 when it starts a frame (RX_LEN is cleared first) and else at RX_LEN. -/
theorem receivePath_buf_changed {cap a : Nat} {u : Bool} {d : Byte} {l : Bool} {p : RxPath}
    (h : (receivePath cap u d l p).buf.readByte a ≠ p.buf.readByte a) :
    a = (if p.body then p.len.toNat else 0) ∧ a < cap := by
  cases hb : p.body with
  | false => rw [receivePath_of_idle cap u d l hb] at h; exact store_buf_changed h
  | true =>
    cases l with
    | true => rw [receivePath_of_last cap u d hb, receiveFinal] at h; exact (store_buf_changed h :)
    | false => rw [receivePath_of_inner cap u d hb] at h; exact receiveInner_buf_changed h

/-- Settles O52: TX_DATA and RX_BYTE write where they store, every other operation leaves both buffers. -/
theorem bufferWritesStayInPlace : Obligations.BufferWritesStayInPlace := by
  intro i s t h a
  cases i with
  | txData p => cases h; exact ⟨fun hne => ⟨⟨p, rfl⟩, appendPayload_buf_changed hne⟩, by simp⟩
  | rxByte d l =>
    cases h
    refine ⟨by simp, fun hne => ⟨⟨d, l, rfl⟩, ?_⟩⟩
    rw [receiveByte_rx] at hne
    exact receivePath_buf_changed hne
  | _ => cases h; simp

/-! ### A 16-bit field as two bytes, low byte first (R11, R48) -/

theorem lo_eq_ofNat (v : Word) : lo v = BitVec.ofNat 8 (v.toNat % 256) := by
  apply BitVec.eq_of_toNat_eq
  simp [lo]

theorem hi_eq_ofNat (v : Word) : hi v = BitVec.ofNat 8 (v.toNat / 256) := by
  apply BitVec.eq_of_toNat_eq
  simp [hi, Nat.shiftRight_eq_div_pow]

@[simp] theorem join16_hi_lo (v : Word) : join16 (hi v) (lo v) = v :=
  BitVec.extractLsb'_append_extractLsb'

/-! ### The layout of the InnerFrame (R85, R86) -/

/-- What the checksum of a request covers, F[1..L−4]: the length field, the command, the payload (R86). -/
def summedBytes (c : Byte) (p : List Byte) : List Byte :=
  [lo (BitVec.ofNat 16 (3 + p.length)), hi (BitVec.ofNat 16 (3 + p.length)), c] ++ p

@[simp] theorem length_summedBytes (c : Byte) (p : List Byte) : (summedBytes c p).length = 3 + p.length := by
  simp [summedBytes]; omega

/-- The InnerFrame is STX, the summed bytes, their checksum and ETX. -/
theorem buildInnerFrame_eq (c : Byte) (p : List Byte) :
    buildInnerFrame c p =
      stx :: (summedBytes c p ++ [lo (checksum (summedBytes c p)), hi (checksum (summedBytes c p)), etx]) := by
  simp [buildInnerFrame, summedBytes, slice]

@[simp] theorem length_buildInnerFrame (c : Byte) (p : List Byte) : (buildInnerFrame c p).length = 7 + p.length := by
  simp [buildInnerFrame_eq]; omega

/-- The summed bytes are where R86 says. -/
theorem slice_buildInnerFrame (c : Byte) (p : List Byte) :
    slice (buildInnerFrame c p) 1 (3 + p.length) = summedBytes c p := by
  simp [buildInnerFrame_eq, slice]

/-- The four bytes before the payload: STX, the length field, the command. -/
theorem buildInnerFrame_getElem?_header (c : Byte) (p : List Byte) {i : Nat} (h : i < 4) :
    (buildInnerFrame c p)[i]? =
      [stx, lo (BitVec.ofNat 16 (3 + p.length)), hi (BitVec.ofNat 16 (3 + p.length)), c][i]? := by
  interval_cases i <;> rfl

theorem buildInnerFrame_getElem?_payload (c : Byte) (p : List Byte) {i : Nat} (h : i < p.length) :
    (buildInnerFrame c p)[4 + i]? = p[i]? := by
  simp [buildInnerFrame_eq, summedBytes, Nat.add_comm 4 i, List.getElem?_append_left h]

/-- The three bytes after the payload: the checksum and ETX. -/
theorem buildInnerFrame_getElem?_trailer (c : Byte) (p : List Byte) (j : Nat) :
    (buildInnerFrame c p)[4 + p.length + j]? =
      [lo (checksum (summedBytes c p)), hi (checksum (summedBytes c p)), etx][j]? := by
  have hj : 4 + p.length + j = (3 + p.length + j) + 1 := by omega
  rw [buildInnerFrame_eq, hj, List.getElem?_cons_succ, List.getElem?_append_right (by simp), length_summedBytes,
    Nat.add_sub_cancel_left]

theorem byteAt_of_getElem? {f : List Byte} {i : Nat} {b : Byte} (h : f[i]? = some b) : byteAt f i = b := by
  simp [byteAt, h]

/-- Up to 65532 payload bytes the length field does not wrap (R85). -/
theorem toNat_lengthField {n : Nat} (h : n ≤ 65532) : (BitVec.ofNat 16 (3 + n)).toNat = 3 + n :=
  (BitVec.toNat_ofNat ..).trans (Nat.mod_eq_of_lt (by omega))

/-- Settles O20: each position lies before, inside or after the payload. -/
theorem innerFrameLayout : Obligations.InnerFrameLayout := by
  intro c p hp
  have hlen := toNat_lengthField hp
  have hlo := buildInnerFrame_getElem?_header c p (i := 1) (by decide)
  have hhi := buildInnerFrame_getElem?_header c p (i := 2) (by decide)
  have hklo := buildInnerFrame_getElem?_trailer c p 0
  have hkhi := buildInnerFrame_getElem?_trailer c p 1
  have hetx := buildInnerFrame_getElem?_trailer c p 2
  have hend : 7 + p.length - 4 = 3 + p.length := by omega
  have h3 : 7 + p.length - 3 = 4 + p.length + 0 := by omega
  have h2 : 7 + p.length - 2 = 4 + p.length + 1 := by omega
  have h1 : 7 + p.length - 1 = 4 + p.length + 2 := by omega
  refine ⟨_, rfl, length_buildInnerFrame c p, ?_⟩
  rw [length_buildInnerFrame, hend, h3, h2, h1, slice_buildInnerFrame, byteAt_of_getElem? hlo, byteAt_of_getElem? hhi,
    byteAt_of_getElem? hklo, byteAt_of_getElem? hkhi, join16_hi_lo, join16_hi_lo]
  exact ⟨rfl, hlo.trans (by simp [lo_eq_ofNat, hlen]), hhi.trans (by simp [hi_eq_ofNat, hlen]), rfl,
    fun _ => buildInnerFrame_getElem?_payload c p, hklo.trans (congrArg some (lo_eq_ofNat _)),
    hkhi.trans (congrArg some (hi_eq_ofNat _)), hetx, hlen, rfl⟩

end Sys2Proof.Machine

/-! The encoding: the words the decoder accepts and the operations they stand for, the encoder, the step on an illegal
word (30_encoding.md R62–R69, R74). A row of the opcode map matches exactly the well-formed words of its operation code
(`hits_iff`); the rest follows from that. -/

namespace Sys2Proof

/-! ### The fields of a word (R61) -/

theorem fieldsOf_injective : Function.Injective fieldsOf := by
  intro v w h
  obtain ⟨hopc, hrsv, hlast, hdata⟩ := OpWord.mk.inj h
  refine BitVec.eq_of_getLsbD_eq fun k hk => ?_
  obtain hk8 | rfl | ⟨h9, h12⟩ | h12 : k < 8 ∨ k = 8 ∨ (9 ≤ k ∧ k < 12) ∨ 12 ≤ k := by omega
  · have hbit := congrArg (·.getLsbD k) hdata
    simpa [dataOf, hk8] using hbit
  · exact hlast
  · have hbit := congrArg (·.getLsbD (k - 9)) hrsv
    simpa [show k - 9 < 3 by omega, show 9 + (k - 9) = k by omega] using hbit
  · have hbit := congrArg (·.getLsbD (k - 12)) hopc
    simpa [show k - 12 < 4 by omega, show 12 + (k - 12) = k by omega] using hbit

/-! ### Rows of the opcode map (R62, R65, R66) -/

/-- The operation code of a row. -/
def OpcodeRow.opc (r : OpcodeRow) : BitVec 4 := (fieldsOf r.pattern).opc

/-- No two rows share an operation code. -/
theorem opcodes_nodup : (opcodeRows.map OpcodeRow.opc).Nodup := by decide

theorem exists_row_of_wellFormed {o : OpWord} (h : o.wellFormed = true) : ∃ r ∈ opcodeRows, r.opc = o.opc := by
  have hlt : o.opc.toNat < 10 := by
    by_contra hge
    simp only [OpWord.wellFormed, OpWord.operandsWellFormed] at h
    split at h
    case h_11 => simp at h
    all_goals omega
  have hrow : ∀ k : BitVec 4, k.toNat < 10 → ∃ r ∈ opcodeRows, r.opc = k := by decide
  exact hrow o.opc hlt

/-- The match of R62, field by field. -/
theorem hits_iff_fields (r : OpcodeRow) (w : Word) : r.hits w = true ↔
    (fieldsOf w).opc &&& (fieldsOf r.mask).opc = r.opc ∧
    (fieldsOf w).rsv &&& (fieldsOf r.mask).rsv = (fieldsOf r.pattern).rsv ∧
    ((fieldsOf w).last && (fieldsOf r.mask).last) = (fieldsOf r.pattern).last ∧
    (fieldsOf w).data &&& (fieldsOf r.mask).data = (fieldsOf r.pattern).data := by
  rw [OpcodeRow.hits, beq_iff_eq, ← fieldsOf_injective.eq_iff]
  simp [fieldsOf, lastOf, dataOf, OpcodeRow.opc, BitVec.extractLsb'_and]

/-- The data bits that CFG_WR requires to be zero, as its mask and as R66 name them. -/
theorem and_cfgMask_eq_zero_iff (d : Byte) : d &&& 0xFE#8 = 0#8 ↔ d >>> 1 = 0#8 := by
  revert d; decide

/-- A row matches exactly the words of its operation code with none of R66's bits set: its mask takes in all of OPC and
RSV, and of L and D what R66 lists for the code. -/
theorem hits_iff {r : OpcodeRow} (hr : r ∈ opcodeRows) (w : Word) :
    r.hits w = true ↔ (fieldsOf w).opc = r.opc ∧ (fieldsOf w).wellFormed = true := by
  have hopc (x : BitVec 4) : x &&& 0xF#4 = x := BitVec.and_allOnes
  have hrsv (x : BitVec 3) : x &&& 0x7#3 = x := BitVec.and_allOnes
  have hdata (x : Byte) : x &&& 0xFF#8 = x := BitVec.and_allOnes
  rw [hits_iff_fields, OpWord.wellFormed, OpWord.operandsWellFormed, OpcodeRow.opc]
  generalize fieldsOf w = o
  simp only [opcodeRows, List.mem_cons, List.not_mem_nil, or_false] at hr
  rcases hr with rfl | rfl | rfl | rfl | rfl | rfl | rfl | rfl | rfl | rfl
  all_goals simp +contextual [fieldsOf, lastOf, dataOf, hopc, hrsv, hdata, and_cfgMask_eq_zero_iff]

theorem eq_of_hits {r q : OpcodeRow} {w : Word} (hr : r ∈ opcodeRows) (hq : q ∈ opcodeRows)
    (hrw : r.hits w = true) (hqw : q.hits w = true) : r = q := by
  obtain ⟨hropc, -⟩ := (hits_iff hr w).mp hrw
  obtain ⟨hqopc, -⟩ := (hits_iff hq w).mp hqw
  exact List.inj_on_of_nodup_map opcodes_nodup hr hq (hropc.symm.trans hqopc)

theorem length_filter_hits_le_one (w : Word) : (opcodeRows.filter (·.hits w)).length ≤ 1 := by
  have hnodup := (List.Nodup.of_map _ opcodes_nodup).filter (·.hits w)
  have hmem (r) (hr : r ∈ opcodeRows.filter (·.hits w)) := List.mem_filter.mp hr
  generalize opcodeRows.filter (·.hits w) = rows at hnodup hmem ⊢
  match rows with
  | [] => exact Nat.zero_le 1
  | [_] => exact Nat.le_refl 1
  | r :: q :: rest =>
    obtain ⟨hr, hrw⟩ := hmem r (by simp)
    obtain ⟨hq, hqw⟩ := hmem q (by simp)
    simp [eq_of_hits hr hq hrw hqw] at hnodup

/-! ### The decoder (R62, R63) -/

theorem decodeWord_eq_ok_iff {w : Word} {i : Instr} :
    decodeWord w = .ok i ↔ ∃ r ∈ opcodeRows, r.hits w = true ∧ r.build w = i := by
  unfold decodeWord
  cases hfind : opcodeRows.find? (·.hits w) with
  | none =>
    have hno := List.find?_eq_none.mp hfind
    simpa using fun r hr hits => absurd hits (hno r hr)
  | some q =>
    have hqw := List.find?_some hfind
    have hq := List.mem_of_find?_eq_some hfind
    simp only [Except.ok.injEq]
    constructor
    · exact fun hbuild => ⟨q, hq, hqw, hbuild⟩
    · rintro ⟨r, hr, hrw, hbuild⟩
      rwa [eq_of_hits hq hr hqw hrw]

theorem exists_decodeWord_eq_ok_iff (w : Word) : (∃ i, decodeWord w = .ok i) ↔ (fieldsOf w).wellFormed = true := by
  simp only [decodeWord_eq_ok_iff]
  constructor
  · rintro ⟨_, r, hr, hits, -⟩
    exact ((hits_iff hr w).mp hits).2
  · intro hwf
    obtain ⟨r, hr, hopc⟩ := exists_row_of_wellFormed hwf
    exact ⟨_, r, hr, (hits_iff hr w).mpr ⟨hopc.symm, hwf⟩, rfl⟩

theorem exists_decodeWord_eq_error {w : Word} (h : (fieldsOf w).wellFormed = false) :
    ∃ r, decodeWord w = .error r := by
  cases hdec : decodeWord w with
  | error r => exact ⟨r, rfl⟩
  | ok i => exact absurd ((exists_decodeWord_eq_ok_iff w).mp ⟨i, hdec⟩) (by simp [h])

/-! ### Encoding a decoded word (R64, R69) -/

theorem setWidth_dataOf (w : Word) : (dataOf w).setWidth 16 = w &&& 0x00FF#16 := by
  have hmod : w.toNat &&& 255 = w.toNat % 256 := Nat.and_two_pow_sub_one_eq_mod w.toNat 8
  apply BitVec.eq_of_toNat_eq
  simp [dataOf, hmod]
  omega

theorem lastBitOf_lastOf (w : Word) : lastBitOf (lastOf w) = w &&& 0x0100#16 := (BitVec.and_twoPow w 8).symm

theorem lastBitOf_lastOf_or (w : Word) : lastBitOf (lastOf w) ||| w &&& 0x00FF#16 = w &&& 0x01FF#16 := by
  rw [lastBitOf_lastOf, ← BitVec.and_or_distrib_left]; rfl

theorem ite_cfgBitOf (w : Word) : (if cfgBitOf w then 0x0001#16 else 0x0000#16) = w &&& 0x0001#16 :=
  (BitVec.and_twoPow w 0).symm

/-- A row takes its operands from the bits outside its mask, and the encoder puts them back there. -/
theorem encode_build {r : OpcodeRow} (hr : r ∈ opcodeRows) (w : Word) :
    encode (r.build w) = r.pattern ||| (w &&& ~~~r.mask) := by
  simp only [opcodeRows, List.mem_cons, List.not_mem_nil, or_false] at hr
  rcases hr with rfl | rfl | rfl | rfl | rfl | rfl | rfl | rfl | rfl | rfl
  all_goals simp [encode, BitVec.or_assoc, setWidth_dataOf, lastBitOf_lastOf_or, ite_cfgBitOf]

theorem pattern_or_of_hits {r : OpcodeRow} {w : Word} (h : r.hits w = true) :
    r.pattern ||| (w &&& ~~~r.mask) = w := by
  rw [← beq_iff_eq.mp h, ← BitVec.and_or_distrib_left, BitVec.or_not_self, BitVec.and_allOnes]

theorem encode_of_decodeWord {w : Word} {i : Instr} (h : decodeWord w = .ok i) : encode i = w := by
  obtain ⟨r, hr, hits, rfl⟩ := decodeWord_eq_ok_iff.mp h
  exact (encode_build hr w).trans (pattern_or_of_hits hits)

/-! ### Decoding an encoded operation (R64, R69) -/

theorem dataOf_or_setWidth {p : Word} (hp : dataOf p = 0#8) (d : Byte) : dataOf (p ||| d.setWidth 16) = d := by
  have hd : dataOf (d.setWidth 16) = d :=
    (BitVec.extractLsb'_setWidth_of_le (by decide)).trans BitVec.extractLsb'_eq_self
  calc dataOf (p ||| d.setWidth 16)
      = dataOf p ||| dataOf (d.setWidth 16) := BitVec.extractLsb'_or
    _ = d := by rw [hp, hd, BitVec.zero_or]

theorem lastOf_or_setWidth (p : Word) (d : Byte) : lastOf (p ||| d.setWidth 16) = lastOf p := by
  simp [lastOf]

/-- Every operation has a row of its code that reads its operands back from its word. -/
theorem exists_row_build_encode (i : Instr) :
    ∃ r ∈ opcodeRows, r.opc = Laws.LegalEncoding.opcode i ∧ r.build (encode i) = i := by
  cases i with
  | nop => exact ⟨opcodeRows[0], List.getElem_mem _, rfl, rfl⟩
  | csumClr => exact ⟨opcodeRows[1], List.getElem_mem _, rfl, rfl⟩
  | csumAdd d => exact ⟨opcodeRows[2], List.getElem_mem _, rfl, congrArg Instr.csumAdd (dataOf_or_setWidth rfl d)⟩
  | txBegin c => exact ⟨opcodeRows[3], List.getElem_mem _, rfl, congrArg Instr.txBegin (dataOf_or_setWidth rfl c)⟩
  | txData p => exact ⟨opcodeRows[4], List.getElem_mem _, rfl, congrArg Instr.txData (dataOf_or_setWidth rfl p)⟩
  | txEnd => exact ⟨opcodeRows[5], List.getElem_mem _, rfl, rfl⟩
  | escByte d l =>
    exact ⟨opcodeRows[6], List.getElem_mem _, rfl, congrArg₂ Instr.escByte
      (dataOf_or_setWidth (by cases l <;> rfl) d) ((lastOf_or_setWidth _ d).trans (by cases l <;> rfl))⟩
  | rxByte d l =>
    exact ⟨opcodeRows[7], List.getElem_mem _, rfl, congrArg₂ Instr.rxByte
      (dataOf_or_setWidth (by cases l <;> rfl) d) ((lastOf_or_setWidth _ d).trans (by cases l <;> rfl))⟩
  | rxAbort => exact ⟨opcodeRows[8], List.getElem_mem _, rfl, rfl⟩
  | cfgWr b => exact ⟨opcodeRows[9], List.getElem_mem _, rfl, congrArg Instr.cfgWr (by cases b <;> rfl)⟩

theorem legalEncoding (i : Instr) : Laws.LegalEncoding.Statement i := by
  cases i with
  | nop => exact Laws.LegalEncoding.nop
  | csumClr => exact Laws.LegalEncoding.csumClr
  | csumAdd d => exact Laws.LegalEncoding.csumAdd d
  | txBegin c => exact Laws.LegalEncoding.txBegin c
  | txData p => exact Laws.LegalEncoding.txData p
  | txEnd => exact Laws.LegalEncoding.txEnd
  | escByte d l => exact Laws.LegalEncoding.escByte d l
  | rxByte d l => exact Laws.LegalEncoding.rxByte d l
  | rxAbort => exact Laws.LegalEncoding.rxAbort
  | cfgWr b => exact Laws.LegalEncoding.cfgWr b

theorem decodeWord_encode (i : Instr) : decodeWord (encode i) = .ok i := by
  obtain ⟨hwf, hopc⟩ := legalEncoding i
  obtain ⟨r, hr, hrow, hbuild⟩ := exists_row_build_encode i
  exact decodeWord_eq_ok_iff.mpr ⟨r, hr, (hits_iff hr _).mpr ⟨hopc.trans hrow.symm, hwf⟩, hbuild⟩

/-! ### The obligations on words -/

/-- Settles O1. -/
theorem decodeInvertsEncode : Obligations.DecodeInvertsEncode :=
  ⟨decodeWord_encode, fun _ _ => encode_of_decodeWord⟩

/-- Settles O2: the words by `hits_iff`, the bits of each row's match word by evaluation. -/
theorem legalWordsAreTheWellFormedOnes : Obligations.LegalWordsAreTheWellFormedOnes :=
  ⟨exists_decodeWord_eq_ok_iff, by decide⟩

/-- Settles O3. -/
theorem atMostOneRowMatches : Obligations.AtMostOneRowMatches :=
  fun w => ⟨length_filter_hits_le_one w, fun _ => decodeWord_eq_ok_iff⟩

/-- Settles O4: the ten words by O1, the five rejections by name. -/
theorem encodingExamples : Obligations.EncodingExamples := by
  unfold Obligations.EncodingExamples
  refine ⟨rfl, decodeWord_encode .nop, decodeWord_encode (.csumAdd 0xFF#8), decodeWord_encode (.txBegin 0x30#8),
    decodeWord_encode (.txData 0x01#8), decodeWord_encode .txEnd, decodeWord_encode (.escByte 0x02#8 true),
    decodeWord_encode (.rxByte 0x55#8 false), decodeWord_encode (.rxByte 0x02#8 true), decodeWord_encode .rxAbort,
    decodeWord_encode (.cfgWr true), ?_⟩
  simp only [List.forall_mem_cons]
  exact ⟨⟨.dataBits, rfl⟩, ⟨.lastBit, rfl⟩, ⟨.reservedBits, rfl⟩, ⟨.dataBits, rfl⟩, ⟨.reservedOpcode, rfl⟩, nofun⟩

end Sys2Proof

/-! The step on an illegal word (30_encoding.md R63, 46_control.md R142). -/

namespace Sys2Proof.Machine

theorem step_of_illFormed {s : State} {w : Word} {rest : List HostEvent} (hin : s.inbox = .op w :: rest)
    (h : (fieldsOf w).wellFormed = false) :
    step s = .next { s with inbox := rest, err := { s.err with illegal := true } } := by
  obtain ⟨r, hdec⟩ := exists_decodeWord_eq_error h
  simp only [step, nextEvent, hin, hdec]
  rfl

/-- In the range of R142 OPC is CFG_WR's and some bit of D above D[0] is set. -/
theorem wellFormed_of_cfgWr_reserved {w : Word} (hlo : 0x9002 ≤ w.toNat) (hhi : w.toNat ≤ 0x90FF) :
    (fieldsOf w).wellFormed = false := by
  have hopc : (fieldsOf w).opc.toNat = 9 := by
    simp [fieldsOf, Nat.shiftRight_eq_div_pow]; omega
  have hdata : (fieldsOf w).data >>> 1 ≠ 0#8 := by
    intro h
    have hzero := congrArg BitVec.toNat h
    simp [fieldsOf, dataOf, Nat.shiftRight_eq_div_pow] at hzero
    omega
  simp [OpWord.wellFormed, OpWord.operandsWellFormed, hopc, hdata]

/-- Settles O7: the words of R142 are ill-formed too. -/
theorem illegalWordSetsIllegalOnly : Obligations.IllegalWordSetsIllegalOnly := by
  intro s w rest hin
  refine ⟨step_of_illFormed hin, fun hlo hhi => ?_⟩
  exact ⟨_, step_of_illFormed hin (wellFormed_of_cfgWr_reserved hlo hhi), rfl, rfl⟩

end Sys2Proof.Machine

/-! The assembler reads the lines it prints (30_encoding.md R69; the printed form is log 16's): a line is a mnemonic, a
blank, and operands between commas, none of which holds a blank, a comma or a semicolon. -/

namespace Sys2Proof.Machine

/-! ### Numbers -/

@[simp] theorem hexDigit_hexChar (n : BitVec 4) : hexDigit (hexChar n) = some n.toNat := by
  revert n; decide

/-- The printed `0xNN` is the byte's upper digit, then its lower. -/
theorem parseNumber_byteText (b : Byte) : parseNumber (byteText b) = some b.toNat := by
  simp [parseNumber, byteText, digitsValue, Nat.shiftRight_eq_div_pow]; omega

@[simp] theorem parseByte_byteText (b : Byte) : parseByte (byteText b) = some b := by
  simp [parseByte, parseNumber_byteText, b.isLt]

/-! ### Tokens -/

/-- A character that neither separates tokens nor starts a comment. -/
def isTokenChar (c : Char) : Bool := !isBlank c && c != ',' && c != ';'

/-- A nonempty text without blanks, commas and semicolons. -/
def IsToken (t : List Char) : Prop := t ≠ [] ∧ t.all isTokenChar = true

theorem isToken_byteText (b : Byte) : IsToken (byteText b) := by
  have hhex : ∀ n : BitVec 4, isTokenChar (hexChar n) = true := by decide
  have hzero : isTokenChar '0' = true := by decide
  have hx : isTokenChar 'x' = true := by decide
  exact ⟨List.cons_ne_nil _ _, by simp [byteText, hhex, hzero, hx]⟩

theorem isTokenChar_iff (c : Char) : isTokenChar c = true ↔ isBlank c = false ∧ c ≠ ',' ∧ c ≠ ';' := by
  simp [isTokenChar, and_assoc]

theorem IsToken.not_isBlank {t : List Char} (h : IsToken t) {c : Char} (hc : c ∈ t) : isBlank c = false :=
  ((isTokenChar_iff c).mp (List.all_eq_true.mp h.2 c hc)).1

theorem IsToken.ne_comma {t : List Char} (h : IsToken t) {c : Char} (hc : c ∈ t) : c ≠ ',' :=
  ((isTokenChar_iff c).mp (List.all_eq_true.mp h.2 c hc)).2.1

theorem IsToken.ne_semicolon {t : List Char} (h : IsToken t) {c : Char} (hc : c ∈ t) : c ≠ ';' :=
  ((isTokenChar_iff c).mp (List.all_eq_true.mp h.2 c hc)).2.2

/-! ### Cutting a line -/

theorem dropComment_eq_self {t : List Char} (h : ∀ c ∈ t, c ≠ ';') : dropComment t = t :=
  List.takeWhile_eq_self_iff.mpr (by simpa using h)

theorem dropWhile_isBlank_eq_self {t : List Char} (h : ∀ c ∈ t.head?, isBlank c = false) :
    t.dropWhile isBlank = t := by
  cases t with
  | nil => rfl
  | cons c t => exact List.dropWhile_cons_of_neg (by simpa using h)

/-- A text with no blank at either end. -/
theorem trim_eq_self {t : List Char} (hhead : ∀ c ∈ t.head?, isBlank c = false)
    (hlast : ∀ c ∈ t.getLast?, isBlank c = false) : trim t = t := by
  have hrev : t.reverse.dropWhile isBlank = t.reverse := dropWhile_isBlank_eq_self (by simpa using hlast)
  rw [trim, dropWhile_isBlank_eq_self hhead, hrev, List.reverse_reverse]

@[simp] theorem trim_blank_cons (t : List Char) : trim (' ' :: t) = trim t := rfl

theorem IsToken.trim_eq {t : List Char} (h : IsToken t) : trim t = t :=
  trim_eq_self (fun _ hc => h.not_isBlank (List.mem_of_mem_head? hc))
    (fun _ hc => h.not_isBlank (List.mem_of_getLast? hc))

/-- Between two tokens stands whatever may: only the ends of a text are trimmed. -/
theorem IsToken.trim_append {t u : List Char} (ht : IsToken t) (hu : IsToken u) (mid : List Char) :
    trim (t ++ mid ++ u) = t ++ mid ++ u := by
  obtain ⟨c, t', rfl⟩ := List.exists_cons_of_ne_nil ht.1
  refine trim_eq_self (by simpa using ht.not_isBlank List.mem_cons_self) fun c hc => ?_
  rw [List.getLast?_append_of_ne_nil _ hu.1] at hc
  exact hu.not_isBlank (List.mem_of_getLast? hc)

theorem splitCommas_ne_nil (t : List Char) : splitCommas t ≠ [] := by
  cases t with
  | nil => simp [splitCommas]
  | cons c t =>
    rw [splitCommas]
    split
    · simp
    · split <;> simp

theorem splitCommas_comma_cons (t : List Char) : splitCommas (',' :: t) = [] :: splitCommas t := by
  rw [splitCommas]
  split
  · next h => exact absurd h (splitCommas_ne_nil t)
  · next h => simp [h]

theorem splitCommas_eq_singleton {t : List Char} (h : ∀ c ∈ t, c ≠ ',') : splitCommas t = [t] := by
  induction t with
  | nil => rfl
  | cons c t ih =>
    obtain ⟨hc, ht⟩ := List.forall_mem_cons.mp h
    simp [splitCommas, ih ht, hc]

theorem splitCommas_append_comma {t u : List Char} (h : ∀ c ∈ t, c ≠ ',') :
    splitCommas (t ++ ',' :: u) = t :: splitCommas u := by
  induction t with
  | nil => exact splitCommas_comma_cons u
  | cons c t ih =>
    obtain ⟨hc, ht⟩ := List.forall_mem_cons.mp h
    simp [splitCommas, ih ht, hc]

/-! ### Operands -/

theorem operandsOf_blank_cons (t : List Char) : operandsOf (' ' :: t) = operandsOf t := rfl

theorem operandsOf_of_trim_eq {t : List Char} (hne : t ≠ []) (h : trim t = t) :
    operandsOf t = (splitCommas t).map trim := by
  unfold operandsOf
  rw [h]
  split
  · contradiction
  · rfl

theorem IsToken.operandsOf_eq {t : List Char} (h : IsToken t) : operandsOf t = [t] := by
  rw [operandsOf_of_trim_eq h.1 h.trim_eq, splitCommas_eq_singleton fun _ => h.ne_comma, List.map_singleton, h.trim_eq]

theorem operandsOf_pair {t u : List Char} (ht : IsToken t) (hu : IsToken u) :
    operandsOf (t ++ [',', ' '] ++ u) = [t, u] := by
  have hcut : splitCommas (t ++ [',', ' '] ++ u) = [t, ' ' :: u] := by
    rw [List.append_assoc]
    refine (splitCommas_append_comma fun _ => ht.ne_comma).trans (congrArg _ (splitCommas_eq_singleton ?_))
    simpa using fun _ => hu.ne_comma
  rw [operandsOf_of_trim_eq (by simp) (ht.trim_append hu _), hcut, List.map_cons, List.map_singleton, ht.trim_eq,
    trim_blank_cons, hu.trim_eq]

/-! ### Lines -/

/-- A line that starts with the mnemonic `m` and a blank and ends with the token `u` is read as its mnemonic and its
operands: no comment, nothing to trim. -/
theorem assembleLine_of_operation {m mid u : List Char} {i : Instr} (hm : IsToken m) (hmid : ∀ c ∈ mid, c ≠ ';')
    (hu : IsToken u) (h : assembleOperation m (operandsOf (mid ++ u)) = some i) :
    assembleLine (m ++ ' ' :: mid ++ u) = .operation i := by
  have hcomment : dropComment (m ++ ' ' :: mid ++ u) = m ++ ' ' :: mid ++ u := by
    refine dropComment_eq_self fun c hc => ?_
    simp only [List.mem_append, List.mem_cons] at hc
    obtain (hc | rfl | hc) | hc := hc
    · exact hm.ne_semicolon hc
    · decide
    · exact hmid c hc
    · exact hu.ne_semicolon hc
  have hblank : ∀ c ∈ m, (!isBlank c) = true := fun c hc => by simp [hm.not_isBlank hc]
  have hmnemonic : (m ++ ' ' :: mid ++ u).takeWhile (!isBlank ·) = m := by
    rw [List.append_assoc, List.takeWhile_append_of_pos hblank]
    exact List.append_nil m
  have hrest : (m ++ ' ' :: mid ++ u).dropWhile (!isBlank ·) = ' ' :: (mid ++ u) := by
    rw [List.append_assoc, List.dropWhile_append_of_pos hblank]
    rfl
  rw [assembleLine, hcomment, hm.trim_append hu]
  split
  · next hnil => simp at hnil
  · simp only [hmnemonic, hrest, operandsOf_blank_cons, h]

theorem assembleLine_byteText {m : List Char} {d : Byte} {i : Instr} (hm : IsToken m)
    (h : assembleOperation m [byteText d] = some i) : assembleLine (m ++ [' '] ++ byteText d) = .operation i :=
  assembleLine_of_operation hm nofun (isToken_byteText d) (by rwa [List.nil_append, (isToken_byteText d).operandsOf_eq])

theorem assembleLine_byteText_last {m : List Char} {d : Byte} {i : Instr} (hm : IsToken m)
    (h : assembleOperation m [byteText d, "last".toList] = some i) :
    assembleLine (m ++ [' '] ++ byteLastText d true) = .operation i := by
  have hline : m ++ [' '] ++ byteLastText d true = m ++ ' ' :: (byteText d ++ [',', ' ']) ++ "last".toList := by
    simp [byteLastText]
  have hd := isToken_byteText d
  have hlast : IsToken "last".toList := ⟨by decide, rfl⟩
  rw [hline]
  refine assembleLine_of_operation hm (fun c hc => ?_) hlast (by rwa [operandsOf_pair hd hlast])
  obtain hc | hc := List.mem_append.mp hc
  · exact hd.ne_semicolon hc
  · rintro rfl
    exact absurd hc (by decide)

/-- An operand with bit L: `last` is a second operand or is not there. -/
theorem assembleLine_byteLastText {m : List Char} {d : Byte} {l : Bool} {i : Instr} (hm : IsToken m)
    (h : assembleOperation m (byteText d :: if l then ["last".toList] else []) = some i) :
    assembleLine (m ++ [' '] ++ byteLastText d l) = .operation i := by
  cases l with
  | false => exact assembleLine_byteText hm h
  | true => exact assembleLine_byteText_last hm h

/-- Settles O5, by the shape of the operation's line: no operand, a byte, a byte and perhaps `last`, a bit. -/
theorem assemblerReadsItsOwnLines : Obligations.AssemblerReadsItsOwnLines := by
  intro i
  cases i with
  | nop => rfl
  | csumClr => rfl
  | csumAdd d => exact assembleLine_byteText (m := "CSUM_ADD".toList) ⟨by decide, rfl⟩ (by simp [assembleOperation])
  | txBegin c => exact assembleLine_byteText (m := "TX_BEGIN".toList) ⟨by decide, rfl⟩ (by simp [assembleOperation])
  | txData p => exact assembleLine_byteText (m := "TX_DATA".toList) ⟨by decide, rfl⟩ (by simp [assembleOperation])
  | txEnd => rfl
  | escByte d l =>
    exact assembleLine_byteLastText (m := "ESC_BYTE".toList) ⟨by decide, rfl⟩ (by cases l <;> simp [assembleOperation])
  | rxByte d l =>
    exact assembleLine_byteLastText (m := "RX_BYTE".toList) ⟨by decide, rfl⟩ (by cases l <;> simp [assembleOperation])
  | rxAbort => rfl
  | cfgWr b => cases b <;> rfl

end Sys2Proof.Machine

/-! The checksum (40_checksum.md R76–R80): `checksum` turns appending a byte into adding it mod 2^16, CSUM_ADD does the
same to the accumulator, and the bytes summed in a request are at most 255 each. -/

namespace Sys2Proof.Machine

/-! ### The checksum of a list (R76) -/

theorem toNat_checksum (b : List Byte) : (checksum b).toNat = (b.map BitVec.toNat).sum % 65536 :=
  BitVec.toNat_ofNat ..

@[simp] theorem checksum_nil : checksum [] = 0x0000#16 := rfl

@[simp] theorem checksum_cons (d : Byte) (b : List Byte) : checksum (d :: b) = zext16 d + checksum b := by
  apply BitVec.eq_of_toNat_eq
  simp [toNat_checksum, toNat_zext16]

theorem checksum_perm {b c : List Byte} (h : b.Perm c) : checksum b = checksum c :=
  congrArg (BitVec.ofNat 16) (h.map BitVec.toNat).sum_nat

theorem checksum_replicate (n : Nat) (d : Byte) :
    checksum (List.replicate n d) = BitVec.ofNat 16 (n * d.toNat) := by
  rw [checksum, List.map_replicate, List.sum_replicate_nat]

/-- Settles O13: R76's fold is the sum, and a sum does not depend on the order. -/
theorem checksumIsTheSum : Obligations.ChecksumIsTheSum := by
  intro b
  refine ⟨?_, checksum_nil, fun _ => checksum_perm⟩
  rw [toNat_checksum, List.sum, List.foldr_map]

/-! ### The accumulator (R77–R79) -/

@[simp] theorem withCsum_withCsum (v w : Word) (s : State) : (s.withCsum v).withCsum w = s.withCsum w := rfl

theorem toNat_csum_add (k : Word) (d : Byte) : (k + zext16 d).toNat = (k.toNat + d.toNat) % 65536 := by
  rw [BitVec.toNat_add, toNat_zext16]

theorem toNat_csum_add_checksum (k : Word) (b : List Byte) :
    (k + checksum b).toNat = (k.toNat + (b.map BitVec.toNat).sum) % 65536 := by
  rw [BitVec.toNat_add, toNat_checksum, Nat.add_mod_mod]

/-- CSUM_ADD of each byte adds the checksum of the list to the accumulator. -/
theorem execAll_map_csumAdd (b : List Byte) (s : State) :
    execAll (b.map .csumAdd) s = .next (s.withCsum (s.csum + checksum b)) := by
  induction b generalizing s with
  | nil => simp [State.withCsum]
  | cons d b ih =>
    rw [List.map_cons, execAll_cons_of_next (exec_csumAdd d s), ih]
    simp [BitVec.add_assoc]

/-- The pseudo-operation CHECKSUM (R73) starts from 0. -/
theorem execAll_pseudoChecksum (b : List Byte) (s : State) :
    execAll (pseudoChecksum b) s = .next (s.withCsum (checksum b)) := by
  rw [pseudoChecksum, execAll_cons_of_next (exec_csumClr s), execAll_map_csumAdd]
  simp

/-- Settles O15, by induction on the list for CSUM_ADD; CSUM_CLR makes the starting value 0. -/
theorem checksumProgramComputesChecksum : Obligations.ChecksumProgramComputesChecksum :=
  fun b s => ⟨execAll_pseudoChecksum b s, _, execAll_map_csumAdd b s, toNat_csum_add_checksum s.csum b⟩

/-! ### When the sum can reach 2^16 (R80) -/

theorem sum_toNat_le (b : List Byte) : (b.map BitVec.toNat).sum ≤ b.length * 255 := by
  have hle (n : Nat) (hn : n ∈ b.map BitVec.toNat) : n ≤ 255 := by
    obtain ⟨d, -, rfl⟩ := List.mem_map.mp hn
    exact Nat.le_of_lt_succ d.isLt
  simpa using List.sum_le_card_nsmul _ _ hle

/-- Settles O16: the summed bytes of a request are 3 + n (R86), each at most 255, and 257 · 255 is less than 65536. -/
theorem checksumWrapNeedsLongPayload : Obligations.ChecksumWrapNeedsLongPayload := by
  refine ⟨checksum_replicate .., checksum_replicate .., fun c p k hp hsum => ?_⟩
  rw [slice_buildInnerFrame] at hsum
  have hle := sum_toNat_le (summedBytes c p)
  rw [length_summedBytes] at hle
  omega

/-! ### The two operations (R77, R78) -/

/-- A word decodes to an operation when it is that operation's word, and only then. -/
theorem decodeWord_eq_ok_iff_eq_encode {w : Word} {i : Instr} : decodeWord w = .ok i ↔ w = encode i :=
  ⟨fun h => (encode_of_decodeWord h).symm, fun h => h ▸ decodeWord_encode i⟩

/-- Settles O14. The words come from the round trip of decoder and encoder. -/
theorem checksumOperations : Obligations.ChecksumOperations :=
  fun d s => ⟨fun _ => decodeWord_eq_ok_iff_eq_encode, fun _ => decodeWord_eq_ok_iff_eq_encode, exec_csumClr s,
    _, exec_csumAdd d s, toNat_csum_add s.csum d⟩

end Sys2Proof.Machine

/-! The frame builder (41_tx_builder.md R82–R93): each operation case by case, the stuffed request on the wire, a
payload collected byte by byte, and what neither path reads of the other. -/

namespace Sys2Proof.Machine

/-! ### The operations case by case (R82–R84) -/

/-- TX_BEGIN opens the frame in either case; only TX_SEQ tells them apart. -/
theorem beginFrame_eq_open (c : Byte) (s : State) :
    beginFrame c s = { s with
      err := { s.err with txSeq := s.err.txSeq || s.tx.active }
      tx := { active := true, bad := false, cmd := c, plen := 0x0000#16, buf := s.tx.buf } } := by
  rw [beginFrame_eq, beginFrame_tx, beginFrame_err]
  cases s.tx.active <;> simp [ErrFlags.set]

theorem appendPayload_of_closed {s : State} (p : Byte) (ha : s.tx.active = false) :
    appendPayload p s = setErr .txSeq s := by
  simp [appendPayload, ha]

theorem appendPayload_of_room {s : State} (p : Byte) (ha : s.tx.active = true)
    (hroom : s.tx.plen.toNat < s.params.maxPayload) :
    appendPayload p s =
      s.withTx { s.tx with buf := s.tx.buf.writeByte s.tx.plen.toNat p, plen := s.tx.plen + 1#16 } := by
  simp [appendPayload, ha, hroom]

theorem appendPayload_of_full {s : State} (p : Byte) (ha : s.tx.active = true)
    (hfull : s.params.maxPayload ≤ s.tx.plen.toNat) :
    appendPayload p s = setErr .txOvf (s.withTx { s.tx with bad := true }) := by
  simp [appendPayload, ha, Nat.not_lt.mpr hfull]

theorem endFrame_of_closed {s : State} (ha : s.tx.active = false) : endFrame s = setErr .txSeq s := by
  simp [endFrame, ha]

theorem endFrame_of_busy {s : State} (ha : s.tx.active = true) (he : s.escBody = true) :
    endFrame s = setErr .escBusy s := by
  simp [endFrame, ha, he]

theorem endFrame_of_bad {s : State} (ha : s.tx.active = true) (he : s.escBody = false) (hb : s.tx.bad = true) :
    endFrame s = s.withTx { s.tx with active := false, bad := false } := by
  simp [endFrame, ha, he, hb]

theorem endFrame_of_good {s : State} (ha : s.tx.active = true) (he : s.escBody = false) (hb : s.tx.bad = false) :
    endFrame s = sendFrame s := by
  simp [endFrame, ha, he, hb]

/-- With room TX_PLEN steps by one without a wrap: it is below MAX_PAYLOAD ≤ 65532. -/
theorem toNat_plen_succ {s : State} (hroom : s.tx.plen.toNat < s.params.maxPayload) :
    (s.tx.plen + 1#16).toNat = s.tx.plen.toNat + 1 :=
  have := maxPayload_le s.params
  toNat_succ (by omega)

/-- Settles O17. -/
theorem txBeginOpensFrame : Obligations.TxBeginOpensFrame := fun c s =>
  ⟨fun _ => decodeWord_eq_ok_iff_eq_encode, (exec_txBegin c s).trans (congrArg _ (beginFrame_eq_open c s))⟩

/-- Settles O18, case by case; the byte is read back where it was written, at TX_PLEN. -/
theorem txDataAppendsOrFlags : Obligations.TxDataAppendsOrFlags := by
  intro p s
  refine ⟨fun _ => decodeWord_eq_ok_iff_eq_encode, fun ha => ?_, fun ha hroom => ?_, fun ha hfull => ?_⟩
  · rw [exec_txData, appendPayload_of_closed p ha]; rfl
  · rw [exec_txData, appendPayload_of_room p ha hroom]
    exact ⟨_, rfl, rfl, toNat_plen_succ hroom, readByte_writeByte_self _ _ _,
      fun a => readByte_writeByte_of_ne _ _ a p⟩
  · rw [exec_txData, appendPayload_of_full p ha hfull]; rfl

/-! ### The stuffed request (R85, R91, R96, R97) -/

/-- Between the first byte and the final one every byte is escaped. -/
theorem stuff_cons_append_singleton (a z : Byte) (mid : List Byte) :
    stuff (a :: (mid ++ [z])) = a :: (mid.flatMap escBytes ++ [z]) := by
  have htail : stuffTail (mid ++ [z]) = mid.flatMap escBytes ++ [z] := by
    induction mid with
    | nil => rfl
    | cons b mid ih =>
      obtain ⟨c, rest, hrest⟩ : ∃ c rest, mid ++ [z] = c :: rest := List.exists_cons_of_ne_nil (by simp)
      rw [List.cons_append, hrest, stuffTail, ← hrest, ih, List.flatMap_cons, List.append_assoc]
  exact congrArg (a :: ·) htail

/-- A request on the wire: STX, the summed bytes and their checksum escaped, ETX. -/
theorem stuff_buildInnerFrame (c : Byte) (p : List Byte) :
    stuff (buildInnerFrame c p) =
      stx :: ((summedBytes c p ++ [lo (checksum (summedBytes c p)), hi (checksum (summedBytes c p))]).flatMap escBytes
        ++ [etx]) := by
  rw [← stuff_cons_append_singleton, buildInnerFrame_eq]
  simp

/-- Only the final byte of a request, its ETX, is marked last. -/
theorem pairs_stuff_buildInnerFrame (c : Byte) (p : List Byte) :
    pairs (stuff (buildInnerFrame c p)) =
      (stuff (buildInnerFrame c p)).dropLast.map (fun b => (⟨b, false⟩ : TxPair)) ++ [⟨etx, true⟩] := by
  rw [stuff_buildInnerFrame, ← List.cons_append, pairs_append_singleton, List.dropLast_concat]

/-- Settles O19, case by case; the frame sent ends in ETX. -/
theorem txEndSendsFrame : Obligations.TxEndSendsFrame := by
  intro s
  refine ⟨fun _ => decodeWord_eq_ok_iff_eq_encode, fun ha => ?_, fun ha he => ?_, fun ha he hb => ?_,
    fun ha he hb => ⟨_, _, rfl, rfl, ?_⟩⟩
  · rw [exec_txEnd, endFrame_of_closed ha]; rfl
  · rw [exec_txEnd, endFrame_of_busy ha he]; rfl
  · rw [exec_txEnd, endFrame_of_bad ha he hb]; rfl
  · rw [exec_txEnd, endFrame_of_good ha he hb, sendFrame, pairs_stuff_buildInnerFrame]; rfl

theorem isReserved_iff_toNat (b : Byte) : isReserved b = true ↔ 1 ≤ b.toNat ∧ b.toNat ≤ 3 := by
  revert b; decide

theorem toNat_lo (v : Word) : (lo v).toNat = v.toNat % 256 := by
  simp [lo_eq_ofNat]

theorem toNat_hi (v : Word) : (hi v).toNat = v.toNat / 256 := by
  have := v.isLt
  rw [hi_eq_ofNat, BitVec.toNat_ofNat]
  omega

/-- Settles O21: the reserved bytes are 1 to 3, the length bytes the remainder and quotient of 3 + n by 256. -/
theorem reservedLengthBytes : Obligations.ReservedLengthBytes := by
  intro c p hp
  have hlen := toNat_lengthField hp
  have hlo := byteAt_of_getElem? (buildInnerFrame_getElem?_header c p (i := 1) (by decide))
  have hhi := byteAt_of_getElem? (buildInnerFrame_getElem?_header c p (i := 2) (by decide))
  refine ⟨hlo, hhi, ?_, ?_, ?_⟩
  · rw [hlo, isReserved_iff_toNat, toNat_lo, hlen]; omega
  · rw [hhi, isReserved_iff_toNat, toNat_hi, hlen]; omega
  · rintro rfl
    exact ⟨_, stuff_buildInnerFrame c []⟩

/-! ### A payload collected byte by byte (R70, R83, R92) -/

/-- The state after TX_DATA for each byte of a payload. -/
def appendPayloads : List Byte → State → State
  | [], s => s
  | b :: p, s => appendPayloads p (appendPayload b s)

theorem execAll_map_txData (p : List Byte) (s : State) :
    execAll (p.map .txData) s = .next (appendPayloads p s) := by
  induction p generalizing s with
  | nil => rfl
  | cons b p ih => exact (execAll_cons_of_next (exec_txData b s)).trans (ih _)

/-- The pseudo-operation TX_FRAME (R70) as the three operations it is made of. -/
theorem execAll_pseudoTxFrame (c : Byte) (p : List Byte) (s : State) :
    execAll (pseudoTxFrame c p) s = .next (endFrame (appendPayloads p (beginFrame c s))) := by
  rw [pseudoTxFrame, execAll_cons_of_next (exec_txBegin c s), execAll_append_of_next (execAll_map_txData p _),
    execAll_cons_of_next (exec_txEnd _), execAll_nil]

/-- A collected payload changes ERR and the transmit path only. -/
theorem appendPayloads_eq (p : List Byte) (s : State) :
    appendPayloads p s = { s with err := (appendPayloads p s).err, tx := (appendPayloads p s).tx } := by
  induction p generalizing s with
  | nil => rfl
  | cons b p ih => rw [appendPayloads, ih, appendPayload_eq]

/-- A byte with room is appended to the payload. -/
theorem txPayload_appendPayload_of_room {s : State} (b : Byte) (ha : s.tx.active = true)
    (hroom : s.tx.plen.toNat < s.params.maxPayload) : txPayload (appendPayload b s) = txPayload s ++ [b] := by
  rw [appendPayload_of_room b ha hroom, txPayload, withTx_tx, toNat_plen_succ hroom, List.range_succ, List.map_append]
  congr 1
  · refine List.map_congr_left fun i hi => ?_
    have hi := List.mem_range.mp hi
    simp [txByte, readByte_writeByte_of_ne _ _ _ _ (Nat.ne_of_lt hi)]
  · simp [txByte]

/-- A payload that fits is appended, and only TX_PLEN and TXBUF change. -/
theorem appendPayloads_of_fits {p : List Byte} {s : State} (ha : s.tx.active = true)
    (hfits : s.tx.plen.toNat + p.length ≤ s.params.maxPayload) :
    (∃ n m, appendPayloads p s = s.withTx { s.tx with plen := n, buf := m }) ∧
      txPayload (appendPayloads p s) = txPayload s ++ p := by
  induction p generalizing s with
  | nil => exact ⟨⟨_, _, rfl⟩, (List.append_nil _).symm⟩
  | cons b p ih =>
    rw [List.length_cons] at hfits
    have hroom : s.tx.plen.toNat < s.params.maxPayload := by omega
    have heq := appendPayload_of_room b ha hroom
    have hlen : (appendPayload b s).tx.plen.toNat = s.tx.plen.toNat + 1 := by
      rw [heq]; exact toNat_plen_succ hroom
    obtain ⟨⟨n, m, hall⟩, hpayload⟩ :=
      ih (s := appendPayload b s) (by simpa using ha) (by rw [hlen, appendPayload_params]; omega)
    refine ⟨⟨n, m, hall.trans (by rw [heq]; rfl)⟩, hpayload.trans ?_⟩
    rw [txPayload_appendPayload_of_room b ha hroom, List.append_assoc, List.singleton_append]

/-- An open frame has lost a byte, and TX_OVF records it. -/
structure Overflowed (s : State) : Prop where
  active : s.tx.active = true
  bad : s.tx.bad = true
  flag : s.err.txOvf = true

theorem Overflowed.appendPayload {s : State} (b : Byte) (h : Overflowed s) : Overflowed (appendPayload b s) := by
  obtain ⟨hclosed, -⟩ | ⟨-, -, heq⟩ | ⟨-, -, heq⟩ := appendPayload_cases s b
  · exact absurd (hclosed.symm.trans h.active) nofun
  · rw [heq]; exact ⟨h.active, h.bad, h.flag⟩
  · rw [heq]; exact ⟨h.active, rfl, rfl⟩

theorem Overflowed.appendPayloads {p : List Byte} {s : State} (h : Overflowed s) : Overflowed (appendPayloads p s) := by
  induction p generalizing s with
  | nil => exact h
  | cons b p ih => exact ih (h.appendPayload b)

/-- A payload that does not fit overflows at the first byte without room, and stays so. -/
theorem overflowed_appendPayloads {p : List Byte} {s : State} (ha : s.tx.active = true)
    (hle : s.tx.plen.toNat ≤ s.params.maxPayload) (hlong : s.params.maxPayload < s.tx.plen.toNat + p.length) :
    Overflowed (appendPayloads p s) := by
  induction p generalizing s with
  | nil => exact absurd hlong (Nat.not_lt.mpr hle)
  | cons b p ih =>
    rw [List.length_cons] at hlong
    by_cases hroom : s.tx.plen.toNat < s.params.maxPayload
    · have hlen : (appendPayload b s).tx.plen.toNat = s.tx.plen.toNat + 1 := by
        rw [appendPayload_of_room b ha hroom]; exact toNat_plen_succ hroom
      exact ih (s := appendPayload b s) (by simpa using ha) (by rw [hlen, appendPayload_params]; omega)
        (by rw [hlen, appendPayload_params]; omega)
    · have heq := appendPayload_of_full b ha (Nat.le_of_not_lt hroom)
      have hover : Overflowed (appendPayload b s) := by rw [heq]; exact ⟨ha, rfl, rfl⟩
      exact hover.appendPayloads

/-- A payload that fits the frame just opened is its payload; so far nothing but the transmit path changed. -/
theorem appendPayloads_beginFrame_of_fits (c : Byte) {p : List Byte} {s : State} (hclosed : s.tx.active = false)
    (hfits : p.length ≤ s.params.maxPayload) :
    ∃ x : TxPath, appendPayloads p (beginFrame c s) = s.withTx x ∧ x.active = true ∧ x.bad = false ∧ x.cmd = c ∧
      txPayload (s.withTx x) = p := by
  have hopen : beginFrame c s = s.withTx ⟨true, false, c, 0x0000#16, s.tx.buf⟩ := by
    rw [beginFrame_eq_open, hclosed, Bool.or_false]; rfl
  obtain ⟨⟨n, m, heq⟩, hpayload⟩ :=
    appendPayloads_of_fits (p := p) (s := beginFrame c s) (by simp) (by simpa using hfits)
  rw [hopen] at heq hpayload ⊢
  exact ⟨_, heq, rfl, rfl, rfl, (congrArg txPayload heq).symm.trans hpayload⟩

/-- Settles O22: a payload that fits is collected whole in the frame just opened, any other leaves it overflowed, and
TX_END then drops it. -/
theorem txFrameSendsStuffedInnerFrame : Obligations.TxFrameSendsStuffedInnerFrame := by
  intro c p s hclosed hidle
  simp only [execAll_pseudoTxFrame]
  refine ⟨fun hfits => ⟨_, rfl, ?_⟩, fun hlong => ⟨_, rfl, ?_⟩⟩
  · obtain ⟨x, hall, ha, hb, rfl, hpayload⟩ := appendPayloads_beginFrame_of_fits c hclosed hfits
    have hlen : x.plen.toNat = p.length := by rw [← hpayload, length_txPayload, withTx_tx]
    have hsum : (buildInnerFrame x.cmd p).length - 4 = p.length + 3 := by rw [length_buildInnerFrame]; omega
    rw [hall, endFrame_of_good (s := s.withTx x) ha hidle hb, sendFrame, withTx_tx, hpayload, hsum]
    exact ⟨rfl, rfl, rfl, hb, rfl, hlen, hpayload, rfl, rfl⟩
  · have hover : Overflowed (appendPayloads p (beginFrame c s)) :=
      overflowed_appendPayloads (by simp) (by simp) (by simpa using hlong)
    have hbody : (appendPayloads p (beginFrame c s)).escBody = false := by
      rw [appendPayloads_eq, beginFrame_escBody, hidle]
    rw [endFrame_of_bad hover.active hbody hover.bad]
    refine ⟨?_, ?_, rfl, hover.flag⟩
    · rw [withTx_txq, appendPayloads_eq, beginFrame_txq]
    · rw [withTx_csum, appendPayloads_eq, beginFrame_csum]

/-! ### What neither path reads of the other (R93) -/

/-- The state with another CFG, receive path and results: what the transmit operations may not read. -/
def State.withReceiveSide (s : State) (u : Bool) (r : RxPath) (q : Result) : State :=
  { s with unstuffEn := u, rx := r, res := q }

theorem beginFrame_withReceiveSide (c : Byte) (s : State) (u : Bool) (r : RxPath) (q : Result) :
    beginFrame c (s.withReceiveSide u r q) = (beginFrame c s).withReceiveSide u r q := by
  simp only [beginFrame_eq_open]; rfl

theorem appendPayload_withReceiveSide (p : Byte) (s : State) (u : Bool) (r : RxPath) (q : Result) :
    appendPayload p (s.withReceiveSide u r q) = (appendPayload p s).withReceiveSide u r q := by
  obtain ⟨ha, heq⟩ | ⟨ha, hroom, heq⟩ | ⟨ha, hfull, heq⟩ := appendPayload_cases s p <;> rw [heq]
  · exact appendPayload_of_closed p ha
  · exact appendPayload_of_room p ha hroom
  · exact appendPayload_of_full p ha hfull

theorem endFrame_withReceiveSide (s : State) (u : Bool) (r : RxPath) (q : Result) :
    endFrame (s.withReceiveSide u r q) = (endFrame s).withReceiveSide u r q := by
  obtain ⟨ha, heq⟩ | ⟨ha, he, heq⟩ | ⟨ha, he, hb, heq⟩ | ⟨ha, he, hb, heq⟩ := endFrame_cases s <;> rw [heq]
  · exact endFrame_of_closed ha
  · exact endFrame_of_busy ha he
  · exact endFrame_of_bad ha he hb
  · exact endFrame_of_good ha he hb

/-- No operation outside the transmit path writes ERR. -/
theorem exec_err_changed {i : Instr} {s t : State} (h : exec i s = .next t) (hne : t.err ≠ s.err) :
    (∃ c, i = .txBegin c) ∨ (∃ p, i = .txData p) ∨ i = .txEnd := by
  cases i with
  | txBegin c => exact .inl ⟨c, rfl⟩
  | txData p => exact .inr (.inl ⟨p, rfl⟩)
  | txEnd => exact .inr (.inr rfl)
  | _ => cases h; simp at hne

/-- Settles O23: each transmit operation commutes with a change of the receive side, and each receive operation is a
function of the receive side and the parameters. -/
theorem txAndRxPathsAreIndependent : Obligations.TxAndRxPathsAreIndependent := by
  refine ⟨?_, ?_, fun _ _ _ => exec_err_changed⟩
  · rintro i s t u r q (⟨c, rfl⟩ | ⟨p, rfl⟩ | rfl) h <;> cases h
    · exact congrArg Host.Outcome.next (beginFrame_withReceiveSide c s u r q)
    · exact congrArg Host.Outcome.next (appendPayload_withReceiveSide p s u r q)
    · exact congrArg Host.Outcome.next (endFrame_withReceiveSide s u r q)
  · rintro i s t x k e b q o (⟨d, l, rfl⟩ | rfl) h <;> cases h
    · exact ⟨receiveByte_err s d l, by cases l <;> rfl⟩
    · exact ⟨rfl, rfl⟩

end Sys2Proof.Machine

/-! The escaper (42_escaper.md R95–R103): ESC_BYTE by position, what stuff makes of the bytes inside a frame, and
ESC_FRAME as stuff streamed byte by byte. -/

namespace Sys2Proof.Machine

/-! ### The escape map (R96, R97) -/

theorem isReserved_iff_mem (b : Byte) : isReserved b = true ↔ b ∈ [0x01#8, 0x02#8, 0x03#8] := by
  simp [isReserved, stx, etx, esc, or_assoc]

theorem isReserved_eq_false_iff_notMem (b : Byte) : isReserved b = false ↔ b ∉ [0x01#8, 0x02#8, 0x03#8] := by
  rw [← isReserved_iff_mem, Bool.not_eq_true]

theorem escBytes_of_reserved {b : Byte} (h : isReserved b = true) : escBytes b = [esc, b + 3#8] := if_pos h

theorem escBytes_of_not_reserved {b : Byte} (h : isReserved b = false) : escBytes b = [b] := by
  simp [escBytes, h]

/-- A reserved byte costs one byte more than any other (R99). -/
theorem length_flatMap_escBytes (mid : List Byte) :
    (mid.flatMap escBytes).length = mid.length + mid.countP isReserved := by
  induction mid with
  | nil => rfl
  | cons b mid ih =>
    rw [List.flatMap_cons, List.length_append, ih]
    cases hb : isReserved b with
    | true => simp [escBytes_of_reserved hb, hb]; omega
    | false => simp [escBytes_of_not_reserved hb, hb]; omega

/-- Only bytes that are not reserved pass the escape map unchanged: each reserved one makes the list longer. -/
theorem flatMap_escBytes_eq_self_iff (mid : List Byte) :
    mid.flatMap escBytes = mid ↔ ∀ b ∈ mid, isReserved b = false := by
  constructor
  · intro h
    have hlen : mid.length = mid.length + mid.countP isReserved := by rw [← length_flatMap_escBytes, h]
    have hnone : mid.countP isReserved = 0 := by omega
    simpa using List.countP_eq_zero.mp hnone
  · intro h
    rw [List.flatMap_congr fun b hb => escBytes_of_not_reserved (h b hb), List.flatMap_singleton']

/-! ### Frames by their ends and their inside -/

theorem exists_ends_of_two_le {f : List Byte} (h : 2 ≤ f.length) : ∃ a mid z, f = a :: (mid ++ [z]) := by
  obtain ⟨a, g, rfl⟩ := List.exists_cons_of_length_pos (by omega : 0 < f.length)
  have hg : g ≠ [] := List.length_pos_iff.mp (Nat.le_of_succ_le_succ h)
  exact ⟨a, g.dropLast, g.getLast hg, by rw [List.dropLast_append_getLast hg]⟩

/-- R99's F[1..len(F)−2] is the inside. -/
theorem slice_inside (a z : Byte) (mid : List Byte) :
    slice (a :: (mid ++ [z])) 1 ((a :: (mid ++ [z])).length - 2) = mid := by
  simp [slice]

/-- The bytes at the indices 1 to len(F)−2 are those of the inside. -/
theorem forall_inside_iff (a z : Byte) (mid : List Byte) (P : Byte → Prop) :
    (∀ i, 1 ≤ i → i + 2 ≤ (a :: (mid ++ [z])).length → ∀ b, (a :: (mid ++ [z]))[i]? = some b → P b) ↔
      ∀ b ∈ mid, P b := by
  have hget {i : Nat} (hi : i < mid.length) : (a :: (mid ++ [z]))[i + 1]? = mid[i]? := by
    rw [List.getElem?_cons_succ, List.getElem?_append_left hi]
  have hlen : (a :: (mid ++ [z])).length = mid.length + 2 := by simp
  rw [hlen]
  constructor
  · intro h b hb
    obtain ⟨i, hi, rfl⟩ := List.getElem_of_mem hb
    exact h (i + 1) (by omega) (by omega) _ ((hget hi).trans (List.getElem?_eq_getElem hi))
  · intro h i hpos hle b hb
    obtain ⟨j, rfl⟩ := Nat.exists_eq_add_of_le' hpos
    rw [hget (by omega)] at hb
    exact h b (List.mem_of_getElem? hb)

/-! ### stuff (R96–R100, R103) -/

/-- Settles O25: the escape map byte by byte, its three pairs by evaluation. -/
theorem stuffEscapesInsideOnly : Obligations.StuffEscapesInsideOnly := by
  refine ⟨fun a z mid => ?_, fun _ => rfl, rfl⟩
  have hmap : ∀ b : Byte, escBytes b =
      if b = 0x01#8 then [0x03#8, 0x04#8] else if b = 0x02#8 then [0x03#8, 0x05#8]
      else if b = 0x03#8 then [0x03#8, 0x06#8] else [b] := by decide
  exact (stuff_cons_append_singleton a z mid).trans (by rw [funext hmap]; rfl)

/-- Settles O26. -/
theorem stuffOutputLength : Obligations.StuffOutputLength := by
  intro f hf
  obtain ⟨a, mid, z, rfl⟩ := exists_ends_of_two_le hf
  rw [slice_inside, stuff_cons_append_singleton]
  simp only [List.length_cons, List.length_append, length_flatMap_escBytes]
  omega

/-- Settles O29: stuff copies the ends, so the inside alone decides. -/
theorem stuffIsIdentityIff : Obligations.StuffIsIdentityIff := by
  intro f hf
  obtain ⟨a, mid, z, rfl⟩ := exists_ends_of_two_le hf
  rw [forall_inside_iff, ← flatMap_escBytes_eq_self_iff, stuff_cons_append_singleton, List.cons_inj_right,
    List.append_cancel_right_eq]

/-! ### No raw marker between the ends (R102) -/

/-- The escape map yields neither marker. -/
theorem markers_notMem_flatMap_escBytes (mid : List Byte) :
    stx ∉ mid.flatMap escBytes ∧ etx ∉ mid.flatMap escBytes := by
  have hbyte : ∀ b : Byte, stx ∉ escBytes b ∧ etx ∉ escBytes b := by decide
  simp [List.mem_flatMap, hbyte]

theorem isEscaped_add_three {b : Byte} (h : isReserved b = true) : isEscaped (b + 3#8) = true := by
  revert b; decide

/-- The escape byte stands only at the head of an escape pair. -/
theorem isEscaped_after_esc (mid : List Byte) (i : Nat) (h : (mid.flatMap escBytes)[i]? = some esc) :
    ∃ d, (mid.flatMap escBytes)[i + 1]? = some d ∧ isEscaped d = true := by
  induction mid generalizing i with
  | nil => cases h
  | cons b mid ih =>
    cases hb : isReserved b with
    | true =>
      rw [List.flatMap_cons, escBytes_of_reserved hb] at h ⊢
      have hd := isEscaped_add_three hb
      match i with
      | 0 => exact ⟨b + 3#8, rfl, hd⟩
      | 1 =>
        have hesc : b + 3#8 = esc := Option.some.inj h
        rw [hesc] at hd
        cases hd
      | i + 2 => exact ih i h
    | false =>
      rw [List.flatMap_cons, escBytes_of_not_reserved hb] at h ⊢
      match i with
      | 0 =>
        obtain rfl : b = esc := Option.some.inj h
        cases hb
      | i + 1 => exact ih i h

theorem isEscaped_iff (d : Byte) : isEscaped d = true ↔ d = 0x04#8 ∨ d = 0x05#8 ∨ d = 0x06#8 := by
  simp [isEscaped, or_assoc]

/-- Settles O28: what stands between STX and ETX is the escape map of the bytes between them. -/
theorem stuffedFrameHasNoRawMarkers : Obligations.StuffedFrameHasNoRawMarkers := by
  intro c p
  refine ⟨_, stuff_buildInnerFrame c p, fun i _ => ⟨fun h => ?_, fun h => ?_, fun h => ?_⟩⟩
  · exact (markers_notMem_flatMap_escBytes _).1 (List.mem_of_getElem? h)
  · exact (markers_notMem_flatMap_escBytes _).2 (List.mem_of_getElem? h)
  · obtain ⟨d, hnext, hd⟩ := isEscaped_after_esc _ i h
    rw [hnext]
    simpa using (isEscaped_iff d).mp hd

/-! ### ESC_BYTE by position (R95) -/

theorem escapeByte_of_idle {s : State} (d : Byte) (l : Bool) (hs : s.escBody = false) :
    escapeByte d l s = (emit d l s).withEscBody (!l) := by
  simp [escapeByte, hs]

theorem escapeByte_of_last {s : State} (d : Byte) (hs : s.escBody = true) :
    escapeByte d true s = (emit d true s).withEscBody false := by
  simp [escapeByte, hs]

theorem emitAll_emitAll (ps qs : List TxPair) (s : State) : emitAll qs (emitAll ps s) = emitAll (ps ++ qs) s := by
  simp [emitAll]

/-- Strictly inside a frame the escape map of the byte is emitted, nothing of it marked last. -/
theorem escapeByte_of_inner {s : State} (d : Byte) (hs : s.escBody = true) :
    escapeByte d false s = emitAll ((escBytes d).map fun b => ⟨b, false⟩) s := by
  cases hd : isReserved d with
  | true =>
    rw [escBytes_of_reserved hd]
    simp [escapeByte, hs, hd, emit, emitAll_emitAll]
  | false =>
    rw [escBytes_of_not_reserved hd]
    simp [escapeByte, hs, hd, emit]

/-- Settles O24, position by position. -/
theorem escByteEmitsByPosition : Obligations.EscByteEmitsByPosition := by
  intro d l s
  refine ⟨fun w => ?_, fun hs => ?_, fun hs hl => ?_, fun hs hl hd => ?_, fun hs hl hd => ?_⟩
  · rw [decodeWord_eq_ok_iff_eq_encode]
    cases l <;> rfl
  · rw [exec_escByte, escapeByte_of_idle d l hs]; rfl
  · rw [exec_escByte, hl, escapeByte_of_last d hs]; rfl
  · rw [exec_escByte, hl, escapeByte_of_inner d hs, escBytes_of_reserved ((isReserved_iff_mem d).mpr hd)]; rfl
  · rw [exec_escByte, hl, escapeByte_of_inner d hs,
      escBytes_of_not_reserved ((isReserved_eq_false_iff_notMem d).mpr hd)]; rfl

/-! ### ESC_FRAME (R101) -/

/-- Nothing before a nonempty end of a frame is marked last. -/
theorem pairs_append {g : List Byte} (f : List Byte) (hg : g ≠ []) :
    pairs (f ++ g) = f.map (fun b => (⟨b, false⟩ : TxPair)) ++ pairs g := by
  rw [← List.dropLast_append_getLast hg, ← List.append_assoc, pairs_append_singleton, pairs_append_singleton,
    List.map_append, List.append_assoc]

theorem stuffTail_ne_nil {f : List Byte} (hf : f ≠ []) : stuffTail f ≠ [] := by
  induction f using stuffTail.induct with
  | case1 => contradiction
  | case2 b => exact List.cons_ne_nil b []
  | case3 b c bs ih => exact List.append_ne_nil_of_right_ne_nil _ (ih (List.cons_ne_nil c bs))

/-- The operations ESC_FRAME is made of, the first one split off. -/
theorem pseudoEscFrame_cons_cons (b c : Byte) (bs : List Byte) :
    pseudoEscFrame (b :: c :: bs) = .escByte b false :: pseudoEscFrame (c :: bs) := rfl

/-- After byte 0, the rest of a frame leaves its stuffed bytes and an idle escaper. -/
theorem execAll_pseudoEscFrame_of_body {f : List Byte} {s : State} (hf : f ≠ []) (hs : s.escBody = true) :
    execAll (pseudoEscFrame f) s = .next ((emitAll (pairs (stuffTail f)) s).withEscBody false) := by
  induction f using stuffTail.induct generalizing s with
  | case1 => contradiction
  | case2 z => exact (execAll_cons_of_next (exec_escByte z true s)).trans (congrArg _ (escapeByte_of_last z hs))
  | case3 b c bs ih =>
    have hrest : stuffTail (c :: bs) ≠ [] := stuffTail_ne_nil (List.cons_ne_nil c bs)
    rw [pseudoEscFrame_cons_cons, execAll_cons_of_next (exec_escByte b false s), escapeByte_of_inner b hs,
      ih (s := emitAll _ s) (List.cons_ne_nil c bs) hs, emitAll_emitAll, stuffTail, pairs_append _ hrest]

/-- ESC_FRAME from an idle escaper: byte 0 as it is, then the rest. -/
theorem execAll_pseudoEscFrame {f : List Byte} {s : State} (hf : f ≠ []) (hs : s.escBody = false) :
    execAll (pseudoEscFrame f) s = .next ((emitAll (pairs (stuff f)) s).withEscBody false) := by
  obtain _ | ⟨a, _ | ⟨b, bs⟩⟩ := f
  · contradiction
  · exact (execAll_cons_of_next (exec_escByte a true s)).trans (congrArg _ (escapeByte_of_idle a true hs))
  · have hrest : stuffTail (b :: bs) ≠ [] := stuffTail_ne_nil (List.cons_ne_nil b bs)
    have hpairs : pairs (stuff (a :: b :: bs)) = ⟨a, false⟩ :: pairs (stuffTail (b :: bs)) := pairs_append [a] hrest
    rw [pseudoEscFrame_cons_cons, execAll_cons_of_next (exec_escByte a false s), escapeByte_of_idle a false hs,
      execAll_pseudoEscFrame_of_body (List.cons_ne_nil b bs) rfl, hpairs]
    simp [emitAll, emit, State.withEscBody]

/-- Settles O27: ESC_FRAME by induction on the bytes after byte 0; TX_END's frame is such a frame. -/
theorem escFrameEmitsStuffedFrame : Obligations.EscFrameEmitsStuffedFrame := by
  constructor
  · intro f s hf hs
    rw [execAll_pseudoEscFrame hf hs, State.withEscBody, ← hs]; rfl
  · intro s ha hb hs
    have hf : buildInnerFrame s.tx.cmd (txPayload s) ≠ [] := by rw [buildInnerFrame_eq]; exact List.cons_ne_nil _ _
    refine ⟨_, _, exec_txEnd s, execAll_pseudoEscFrame hf hs, ?_⟩
    rw [endFrame_of_good ha hs hb]; rfl

end Sys2Proof.Machine

/-! The receive path and the descaper (43_rx_descaper.md R105–R116): RX_BYTE by position, unstuff and rxframe on a frame
given by its ends and its inside, and RX_FRAME as rxframe's list stored byte by byte. -/

namespace Sys2Proof.Machine

/-! ### RX_BYTE strictly inside a frame (R105, last four branches) -/

theorem receiveInner_of_raw {p : RxPath} (cap : Nat) (d : Byte) (hm : p.mode = false) :
    receiveInner cap d p = store cap d p := by
  simp [receiveInner, hm]

theorem receiveInner_of_pending {p : RxPath} (cap : Nat) (d : Byte) (hm : p.mode = true) (he : p.dscEsc = true) :
    receiveInner cap d p =
      { store cap (d - 3#8) p with dscErr := p.dscErr || !isEscaped d, dscEsc := false } := by
  simp [receiveInner, hm, he]

theorem receiveInner_of_esc {p : RxPath} (cap : Nat) (hm : p.mode = true) (he : p.dscEsc = false) :
    receiveInner cap esc p = { p with dscEsc := true } := by
  simp [receiveInner, hm, he]

theorem receiveInner_of_plain {p : RxPath} (cap : Nat) {d : Byte} (hm : p.mode = true) (he : p.dscEsc = false)
    (hd : d ≠ esc) : receiveInner cap d p = store cap d p := by
  simp [receiveInner, hm, he, hd]

@[simp] theorem receiveInner_body (cap : Nat) (d : Byte) (p : RxPath) : (receiveInner cap d p).body = p.body := by
  unfold receiveInner
  repeat' split
  all_goals simp

/-! ### The operations on the receive path -/

/-- Settles O30: with room the byte is read back where it was written, at RX_LEN. -/
theorem storeAppendsOrOverflows : Obligations.StoreAppendsOrOverflows := by
  intro v cap p hcap
  refine ⟨fun hroom => ?_, store_of_le v⟩
  have hlen : (p.len + 1#16).toNat = p.len.toNat + 1 := toNat_succ (by omega)
  refine ⟨_, store_of_lt v hroom, rfl, hlen, ?_, readByte_writeByte_self _ _ _,
    fun a => readByte_writeByte_of_ne _ _ a v⟩
  exact hlen.trans_le hroom

/-- Settles O31: byte 0 finds RX_LEN cleared and room for it, since MAX_RX is at least 11. -/
theorem rxFirstByteStartsFrame : Obligations.RxFirstByteStartsFrame := by
  intro d l s hb
  have hroom : 0 < s.params.maxRx := Nat.lt_of_lt_of_le (by decide) (le_maxRx s.params)
  refine ⟨_, exec_rxByte d l s, ?_⟩
  have hrx : (receiveByte d l s).rx =
      { body := !l, mode := s.unstuffEn, dscEsc := false, dscErr := false, ovf := false, len := 1#16,
        buf := s.rx.buf.writeByte 0 d } := by
    rw [receiveByte_rx, receivePath_of_idle _ _ _ _ hb, receiveFirst, store_of_lt d hroom]; rfl
  rw [hrx]
  refine ⟨rfl, rfl, rfl, rfl, rfl, rfl, readByte_writeByte_self _ _ _,
    fun a => readByte_writeByte_of_ne _ _ a d, ?_, ?_⟩
  · rintro rfl
    rw [← hrx]; rfl
  · rintro rfl
    rw [← hrx, receiveByte_rx]; rfl

/-- Settles O32. -/
theorem rxFinalByteCompletesFrame : Obligations.RxFinalByteCompletesFrame := by
  intro d s hb
  refine ⟨_, _, rfl, rfl, ?_⟩
  have herr : (s.rx.dscErr || (s.rx.mode && s.rx.dscEsc)) =
      if s.rx.mode = true ∧ s.rx.dscEsc = true then true else s.rx.dscErr := by
    cases s.rx.mode <;> cases s.rx.dscEsc <;> simp
  rw [exec_rxByte, receiveByte_last, receivePath_of_last _ _ _ hb, receiveFinal, herr]; rfl

theorem isEscaped_iff_mem (d : Byte) : isEscaped d = true ↔ d ∈ [0x04#8, 0x05#8, 0x06#8] := by
  simp [isEscaped_iff]

theorem isEscaped_eq_false_iff_notMem (d : Byte) : isEscaped d = false ↔ d ∉ [0x04#8, 0x05#8, 0x06#8] := by
  rw [← isEscaped_iff_mem, Bool.not_eq_true]

/-- To take 3 away mod 256 is to add 253. -/
theorem sub_three_eq_ofNat (d : Byte) : d - 3#8 = BitVec.ofNat 8 ((d.toNat + 253) % 256) := by
  revert d; decide

/-- Settles O33, branch by branch. -/
theorem rxInnerByteStoresOrDescapes : Obligations.RxInnerByteStoresOrDescapes := by
  intro d s hb
  refine ⟨receiveInner s.params.maxRx d s.rx, ?_, fun hm => receiveInner_of_raw _ d hm, fun hm he => ?_,
    fun hm he hd => ?_, fun hm he hd => receiveInner_of_plain _ hm he hd⟩
  · rw [exec_rxByte, receiveByte, receivePath_of_inner _ _ _ hb]; rfl
  · have herr : (s.rx.dscErr || !isEscaped d) = if d ∈ [0x04#8, 0x05#8, 0x06#8] then s.rx.dscErr else true := by
      by_cases hd : d ∈ [0x04#8, 0x05#8, 0x06#8]
      · rw [if_pos hd, (isEscaped_iff_mem d).mpr hd]; exact Bool.or_false _
      · rw [if_neg hd, (isEscaped_eq_false_iff_notMem d).mpr hd]; exact Bool.or_true _
    rw [receiveInner_of_pending _ d hm he, sub_three_eq_ofNat, herr]
  · rw [hd]; exact receiveInner_of_esc _ hm he

/-- Settles O34. The word comes from the round trip of decoder and encoder. -/
theorem rxAbortDiscardsFrame : Obligations.RxAbortDiscardsFrame :=
  ⟨fun _ => decodeWord_eq_ok_iff_eq_encode, exec_rxAbort⟩

/-- Inside a frame UNSTUFF_EN is not read. -/
theorem receivePath_unstuffEn_of_body {p : RxPath} (cap : Nat) (u u' : Bool) (d : Byte) (l : Bool)
    (hb : p.body = true) : receivePath cap u d l p = receivePath cap u' d l p := by
  simp [receivePath, hb]

/-- Settles O35: byte 0 latches; that nothing else writes RX_MODE is part of O51. -/
theorem rxModeIsLatchedAtByteZero : Obligations.RxModeIsLatchedAtByteZero := by
  refine ⟨fun d l s hb => ⟨_, exec_rxByte d l s, ?_⟩, fun i s t hwhen h => ?_, fun d l b s t hb h => ?_⟩
  · rw [receiveByte_rx, receivePath_of_idle _ _ _ _ hb]
    exact store_mode ..
  · obtain ⟨-, -, -, -, -, -, -, -, -, -, -, -, -, -, -, hmode, -⟩ := eachElementHasItsWriters i s t h
    exact hmode hwhen
  · cases h
    have hpath := receivePath_unstuffEn_of_body s.params.maxRx b s.unstuffEn d l hb
    simp only [exec_rxByte, receiveByte, hpath]
    cases l <;> rfl

/-! ### unstuff (R108): the descaper's body byte by byte -/

theorem unstuffBody_esc (t : List Byte) (err : Bool) :
    unstuffBody (esc :: t) false err = unstuffBody t true err := if_pos rfl

theorem unstuffBody_plain {b : Byte} (t : List Byte) (err : Bool) (hb : b ≠ esc) :
    unstuffBody (b :: t) false err = (b :: (unstuffBody t false err).1, (unstuffBody t false err).2) := if_neg hb

theorem unstuffBody_pending (b : Byte) (t : List Byte) (err : Bool) :
    unstuffBody (b :: t) true err =
      ((b - 3#8) :: (unstuffBody t false (err || !isEscaped b)).1,
        (unstuffBody t false (err || !isEscaped b)).2) := rfl

/-- A body without 0x03 passes unchanged (R116). -/
theorem unstuffBody_of_no_esc {mid : List Byte} (err : Bool) (h : ∀ b ∈ mid, b ≠ esc) :
    unstuffBody mid false err = (mid, false, err) := by
  induction mid with
  | nil => rfl
  | cons b mid ih =>
    obtain ⟨hb, hmid⟩ := List.forall_mem_cons.mp h
    rw [unstuffBody_plain mid err hb, ih hmid]

/-- The escape map is taken back, byte by byte: a pair to its byte, and only a reserved byte makes a pair. -/
theorem unstuffBody_flatMap_escBytes (mid : List Byte) (err : Bool) :
    unstuffBody (mid.flatMap escBytes) false err = (mid, false, err) := by
  induction mid with
  | nil => rfl
  | cons b mid ih =>
    rw [List.flatMap_cons]
    cases hb : isReserved b with
    | true =>
      rw [escBytes_of_reserved hb, List.cons_append, List.singleton_append, unstuffBody_esc, unstuffBody_pending,
        isEscaped_add_three hb, BitVec.add_sub_cancel, Bool.not_true, Bool.or_false, ih]
    | false =>
      have hne : b ≠ esc := by rintro rfl; cases hb
      rw [escBytes_of_not_reserved hb, List.singleton_append, unstuffBody_plain _ _ hne, ih]

/-- unstuff copies the ends and descapes the inside; a 0x03 left pending is an error (R112). -/
theorem unstuff_cons_append_singleton (a z : Byte) (mid : List Byte) :
    unstuff (a :: (mid ++ [z])) =
      (a :: ((unstuffBody mid false false).1 ++ [z]),
        (unstuffBody mid false false).2.2 || (unstuffBody mid false false).2.1) := by
  obtain ⟨c, rest, hrest⟩ : ∃ c rest, mid ++ [z] = c :: rest := List.exists_cons_of_ne_nil (by simp)
  rw [hrest, unstuff, ← hrest, List.dropLast_concat, List.getLastD_concat]; rfl

/-- The three shapes R108 tells apart: no byte, one byte, two ends and an inside. -/
theorem nil_or_singleton_or_ends (r : List Byte) : r = [] ∨ (∃ a, r = [a]) ∨ ∃ a mid z, r = a :: (mid ++ [z]) := by
  match r with
  | [] => exact .inl rfl
  | [a] => exact .inr (.inl ⟨a, rfl⟩)
  | a :: b :: t => exact .inr (.inr (exists_ends_of_two_le (Nat.le_add_left 2 t.length)))

/-- R109's first half, for every nonempty frame. -/
theorem unstuff_stuff {f : List Byte} (hf : f ≠ []) : unstuff (stuff f) = (f, false) := by
  obtain rfl | ⟨a, rfl⟩ | ⟨a, mid, z, rfl⟩ := nil_or_singleton_or_ends f
  · contradiction
  · rfl
  · rw [stuff_cons_append_singleton, unstuff_cons_append_singleton, unstuffBody_flatMap_escBytes]; rfl

/-- Settles O36. The frame 00 01 02 descapes to itself, and stuffing it escapes the 0x01 inside. -/
theorem unstuffInvertsStuff : Obligations.UnstuffInvertsStuff := by
  refine ⟨fun f => unstuff_stuff, ⟨[0x00#8, 0x01#8, 0x02#8], by decide⟩, fun a z b hb => ?_, fun a z d hd => ?_⟩
  · have hne : b ≠ esc := by rintro rfl; exact absurd hb (by decide)
    have hres : isReserved b = true := (isReserved_iff_mem b).mpr (List.mem_append_left [0x03#8] hb)
    have hbody : unstuffBody [b] false false = ([b], false, false) :=
      unstuffBody_of_no_esc false (by simpa using hne)
    constructor
    · exact (unstuff_cons_append_singleton a z [b]).trans (by rw [hbody]; rfl)
    · exact (stuff_cons_append_singleton a z [b]).trans (by simp [escBytes_of_reserved hres, esc])
  · have hbad : isEscaped d = false := (isEscaped_eq_false_iff_notMem d).mpr hd
    have hbody : unstuffBody [esc, d] false false = ([d - 3#8], false, true) := by
      rw [unstuffBody_esc, unstuffBody_pending, hbad]; rfl
    exact (unstuff_cons_append_singleton a z [esc, d]).trans (by rw [hbody]; rfl)

@[simp] theorem rxframeOf_nil (m : Bool) : rxframeOf [] m = ([], false) := by cases m <;> rfl

/-- Settles O39: without 0x03 inside the descaper passes every byte. -/
theorem noEscapeByteSameInBothModes : Obligations.NoEscapeByteSameInBothModes := by
  intro r h
  obtain rfl | ⟨a, rfl⟩ | ⟨a, mid, z, rfl⟩ := nil_or_singleton_or_ends r
  · rfl
  · rfl
  · have hmid : ∀ b ∈ mid, b ≠ esc :=
      (forall_inside_iff a z mid (· ≠ esc)).mp fun i hpos hle b hb heq => h i hpos hle (hb.trans (congrArg some heq))
    show unstuff (a :: (mid ++ [z])) = (a :: (mid ++ [z]), false)
    rw [unstuff_cons_append_singleton, unstuffBody_of_no_esc false hmid]; rfl

/-! ### A list of bytes stored in order (R106) -/

/-- `Store` of each byte of a list. -/
def storeAll (cap : Nat) (vs : List Byte) (p : RxPath) : RxPath := vs.foldl (fun q v => store cap v q) p

theorem storeAll_cons (cap : Nat) (v : Byte) (vs : List Byte) (p : RxPath) :
    storeAll cap (v :: vs) p = storeAll cap vs (store cap v p) := rfl

theorem storeAll_concat (cap : Nat) (vs : List Byte) (z : Byte) (p : RxPath) :
    storeAll cap (vs ++ [z]) p = store cap z (storeAll cap vs p) := List.foldl_concat ..

@[simp] theorem storeAll_mode (cap : Nat) (vs : List Byte) (p : RxPath) : (storeAll cap vs p).mode = p.mode := by
  induction vs generalizing p with
  | nil => rfl
  | cons v vs ih => rw [storeAll_cons, ih, store_mode]

/-- RXBUF[0..RX_LEN−1] of a path. -/
def RxPath.frame (p : RxPath) : List Byte := frameOf p.buf p.len.toNat

theorem rxFrame_eq_frame (s : State) : rxFrame s = s.rx.frame := rfl

theorem RxPath.length_frame (p : RxPath) : p.frame.length = p.len.toNat := by
  simp [RxPath.frame, frameOf]

/-- What fits is appended to the frame, the rest is dropped with RX_OVF. -/
theorem storeAll_frame_ovf {cap : Nat} {p : RxPath} (vs : List Byte) (hc : cap ≤ 65535) (hle : p.len.toNat ≤ cap) :
    (storeAll cap vs p).frame = (p.frame ++ vs).take cap ∧
      (storeAll cap vs p).ovf = (p.ovf || decide (cap < p.len.toNat + vs.length)) := by
  induction vs generalizing p with
  | nil =>
    rw [List.append_nil, List.take_of_length_le (by rwa [p.length_frame])]
    simpa [storeAll] using fun h => absurd h (Nat.not_lt.mpr hle)
  | cons v vs ih =>
    rw [storeAll_cons]
    by_cases hroom : p.len.toNat < cap
    · have hframe : (store cap v p).frame = p.frame ++ [v] := frameOf_store_of_lt v hroom hc
      have hlen : (store cap v p).len.toNat = p.len.toNat + 1 := by
        rw [← RxPath.length_frame, hframe, List.length_append, p.length_frame]; rfl
      obtain ⟨hall, hovf⟩ := ih (p := store cap v p) (by omega)
      rw [hall, hovf, hframe, hlen, store_of_lt v hroom]
      simp [Nat.add_assoc, Nat.add_comm 1]
    · have hfull : p.len.toNat = cap := Nat.le_antisymm hle (Nat.le_of_not_lt hroom)
      rw [store_of_le v hfull.ge]
      obtain ⟨hall, hovf⟩ := ih (p := { p with ovf := true }) hle
      have hkeep (ws : List Byte) : (p.frame ++ ws).take cap = p.frame :=
        List.take_left' (p.length_frame.trans hfull)
      rw [hovf, hkeep]
      exact ⟨hall.trans (hkeep vs), by simp [hfull]⟩

/-! ### A frame on the receive path: rxframe's list stored from an emptied path (R105, R108) -/

/-- The path of a frame just begun, before its byte 0 is stored: RX_MODE latched, the frame's state cleared. -/
def RxPath.begun (u : Bool) (p : RxPath) : RxPath :=
  { p with mode := u, len := 0x0000#16, dscEsc := false, dscErr := false, ovf := false }

/-- The path with the three flags that say where in a frame it is: RX_BODY, DSC_ESC, DSC_ERR. -/
def RxPath.withFlags (body pend err : Bool) (p : RxPath) : RxPath :=
  { p with body := body, dscEsc := pend, dscErr := err }

/-- Store neither reads nor writes those flags. -/
theorem store_withFlags (cap : Nat) (v : Byte) (b e r : Bool) (p : RxPath) :
    store cap v (p.withFlags b e r) = (store cap v p).withFlags b e r := by
  unfold store RxPath.withFlags
  split <;> rfl

theorem receiveFirst_eq (cap : Nat) (u : Bool) (d : Byte) (l : Bool) (p : RxPath) :
    receiveFirst cap u d l p = (store cap d (p.begun u)).withFlags (!l) false false := by
  have h := store_withFlags cap d p.body false false (p.begun u)
  exact congrArg (fun q : RxPath => { q with body := !l }) h

theorem receiveFinal_withFlags (cap : Nat) (d : Byte) (b e r : Bool) (p : RxPath) :
    receiveFinal cap d (p.withFlags b e r) = (store cap d p).withFlags false false (r || (p.mode && e)) := by
  have h := store_withFlags cap d b false (r || (p.mode && e)) p
  exact congrArg (fun q : RxPath => { q with body := false }) h

/-- The path after each byte of a list strictly inside a frame. -/
def receiveInside (cap : Nat) (mid : List Byte) (p : RxPath) : RxPath := mid.foldl (fun q d => receiveInner cap d q) p

theorem receiveInside_cons (cap : Nat) (d : Byte) (mid : List Byte) (p : RxPath) :
    receiveInside cap (d :: mid) p = receiveInside cap mid (receiveInner cap d p) := rfl

@[simp] theorem receiveInside_body (cap : Nat) (mid : List Byte) (p : RxPath) :
    (receiveInside cap mid p).body = p.body := by
  induction mid generalizing p with
  | nil => rfl
  | cons d mid ih => rw [receiveInside_cons, ih, receiveInner_body]

/-- In RX_MODE 0 the bytes are stored as they come. -/
theorem receiveInside_of_raw {p : RxPath} (cap : Nat) (mid : List Byte) (b e r : Bool) (hm : p.mode = false) :
    receiveInside cap mid (p.withFlags b e r) = (storeAll cap mid p).withFlags b e r := by
  induction mid generalizing p with
  | nil => rfl
  | cons d mid ih =>
    rw [receiveInside_cons, receiveInner_of_raw (p := p.withFlags b e r) cap d hm, store_withFlags,
      ih ((store_mode ..).trans hm), storeAll_cons]

/-- In RX_MODE 1 the descaper's list is stored, and its pending bit and error bit stand in DSC_ESC and DSC_ERR. -/
theorem receiveInside_of_descaping {p : RxPath} (cap : Nat) (mid : List Byte) (b pend err : Bool)
    (hm : p.mode = true) :
    receiveInside cap mid (p.withFlags b pend err) =
      (storeAll cap (unstuffBody mid pend err).1 p).withFlags b (unstuffBody mid pend err).2.1
        (unstuffBody mid pend err).2.2 := by
  induction mid generalizing p pend err with
  | nil => rfl
  | cons d mid ih =>
    have hstep (v : Byte) : (store cap v p).mode = true := (store_mode ..).trans hm
    rw [receiveInside_cons]
    cases pend with
    | true =>
      rw [receiveInner_of_pending (p := p.withFlags b true err) cap d hm rfl, store_withFlags, unstuffBody_pending]
      exact ih false (err || !isEscaped d) (hstep _)
    | false =>
      by_cases hd : d = esc
      · rw [hd, receiveInner_of_esc (p := p.withFlags b false err) cap hm rfl, unstuffBody_esc]
        exact ih true err hm
      · rw [receiveInner_of_plain (p := p.withFlags b false err) cap hm rfl hd, store_withFlags,
          unstuffBody_plain mid err hd]
        exact ih false err (hstep _)

/-- The path a whole frame leaves: rxframe's list stored from an emptied path, its error bit in DSC_ERR. -/
def receivedPath (cap : Nat) (u : Bool) (r : List Byte) (p : RxPath) : RxPath :=
  (storeAll cap (rxframeOf r u).1 (p.begun u)).withFlags false false (rxframeOf r u).2

theorem receiveFirst_singleton (cap : Nat) (u : Bool) (a : Byte) (p : RxPath) :
    receiveFirst cap u a true p = receivedPath cap u [a] p := by
  rw [receiveFirst_eq]
  cases u <;> rfl

/-- First, inner and final bytes together. -/
theorem receiveFinal_receiveInside_receiveFirst (cap : Nat) (u : Bool) (a z : Byte) (mid : List Byte) (p : RxPath) :
    receiveFinal cap z (receiveInside cap mid (receiveFirst cap u a false p)) =
      receivedPath cap u (a :: (mid ++ [z])) p := by
  have hm : (store cap a (p.begun u)).mode = u := store_mode ..
  rw [receiveFirst_eq, receivedPath]
  cases u with
  | false =>
    rw [receiveInside_of_raw _ _ _ _ _ hm, receiveFinal_withFlags, ← storeAll_concat, Bool.and_false]; rfl
  | true =>
    rw [receiveInside_of_descaping _ _ _ _ _ hm, receiveFinal_withFlags, ← storeAll_concat, storeAll_mode, hm,
      rxframeOf, if_pos rfl, unstuff_cons_append_singleton, storeAll_cons, Bool.true_and]

/-! ### RX_FRAME (R72, R108) -/

/-- Bytes strictly inside a frame change the receive path only. -/
theorem execAll_map_rxByte_of_inside (mid : List Byte) {s : State} (hb : s.rx.body = true) :
    execAll (mid.map (.rxByte · false)) s = .next (s.withRx (receiveInside s.params.maxRx mid s.rx)) := by
  induction mid generalizing s with
  | nil => rfl
  | cons d mid ih =>
    have hstep : receiveByte d false s = s.withRx (receiveInner s.params.maxRx d s.rx) :=
      congrArg s.withRx (receivePath_of_inner _ _ d hb)
    rw [List.map_cons, execAll_cons_of_next (exec_rxByte d false s), hstep, ih (by simpa using hb)]; rfl

/-- The operations RX_FRAME is made of, the first and the last one split off. -/
theorem pseudoRxFrame_cons_append_singleton (a z : Byte) (mid : List Byte) :
    pseudoRxFrame (a :: (mid ++ [z])) = .rxByte a false :: (mid.map (.rxByte · false) ++ [.rxByte z true]) := by
  rw [pseudoRxFrame, ← List.cons_append, pairs_append_singleton]
  simp

/-- RX_FRAME at a frame start: the path of the whole frame, then its completion. -/
theorem execAll_pseudoRxFrame {r : List Byte} {s : State} (hr : r ≠ []) (hb : s.rx.body = false) :
    execAll (pseudoRxFrame r) s =
      .next (complete (s.withRx (receivedPath s.params.maxRx s.unstuffEn r s.rx))) := by
  have hfirst (a : Byte) (l : Bool) := receivePath_of_idle s.params.maxRx s.unstuffEn a l hb
  obtain rfl | ⟨a, rfl⟩ | ⟨a, mid, z, rfl⟩ := nil_or_singleton_or_ends r
  · contradiction
  · refine (execAll_cons_of_next (exec_rxByte a true s)).trans ((execAll_nil _).trans ?_)
    rw [receiveByte_last, hfirst, receiveFirst_singleton]
  · have hstart : receiveByte a false s = s.withRx (receiveFirst s.params.maxRx s.unstuffEn a false s.rx) :=
      congrArg s.withRx (hfirst a false)
    rw [pseudoRxFrame_cons_append_singleton, execAll_cons_of_next (exec_rxByte a false s), hstart,
      execAll_append_of_next (execAll_map_rxByte_of_inside mid rfl), execAll_cons_of_next (exec_rxByte z true _),
      execAll_nil, receiveByte_last, receivePath_of_last _ _ _ (receiveInside_body ..),
      ← receiveFinal_receiveInside_receiveFirst]; rfl

/-- RXBUF then holds rxframe's list as far as it fits, and RX_OVF says whether it did not. -/
theorem receivedPath_frame_ovf {cap : Nat} (u : Bool) (r : List Byte) (p : RxPath) (hc : cap ≤ 65535) :
    (receivedPath cap u r p).frame = (rxframeOf r u).1.take cap ∧
      (receivedPath cap u r p).ovf = decide (cap < (rxframeOf r u).1.length) := by
  obtain ⟨hframe, hovf⟩ := storeAll_frame_ovf (p := p.begun u) (rxframeOf r u).1 hc (Nat.zero_le cap)
  refine ⟨hframe, hovf.trans ?_⟩
  simp [RxPath.begun]

/-- Settles O37: a list that fits is stored whole. -/
theorem rxFrameStoresDescapedFrame : Obligations.RxFrameStoresDescapedFrame := by
  intro r s hr hb hfits
  obtain ⟨hframe, hovf⟩ := receivedPath_frame_ovf s.unstuffEn r s.rx (maxRx_le s.params)
  refine ⟨_, execAll_pseudoRxFrame hr hb, ?_, rfl, rfl, ?_, storeAll_mode .., rfl⟩
  · exact (rxFrame_eq_frame _).trans (hframe.trans (List.take_of_length_le hfits))
  · exact hovf.trans (decide_eq_false (Nat.not_lt.mpr hfits))

/-- A frame completed with RX_OVF fails the first check (R121). -/
theorem completedResult_of_ovf (p : Params) (dscErr : Bool) (f : List Byte) (n : Nat) :
    completedResult p true dscErr f n = { clearedResult f n with reason := .rxOverflow } :=
  completedResult_of_ne p (nofun : Reason.rxOverflow ≠ .ok)

/-- Settles O38: a list that does not fit leaves RX_OVF set when the frame completes. -/
theorem overlongFrameIsOverflow : Obligations.OverlongFrameIsOverflow := by
  intro r s hb hlong
  have hr : r ≠ [] := by
    rintro rfl
    rw [rxframeOf_nil] at hlong
    exact Nat.not_lt_zero _ hlong
  obtain ⟨hframe, hovf⟩ := receivedPath_frame_ovf s.unstuffEn r s.rx (maxRx_le s.params)
  have hovf := hovf.trans (decide_eq_true hlong)
  refine ⟨_, execAll_pseudoRxFrame hr hb, hovf, (rxFrame_eq_frame _).trans hframe, ?_⟩
  rw [complete_eq_withRes, withRx_rx, hovf, completedResult_of_ovf]
  exact ⟨rfl, rfl, rfl, rfl⟩

end Sys2Proof.Machine

/-! The validator and the completion of a frame (44_validator.md R120–R126): the source's checks on the frame's own bytes,
what a completion leaves in the result registers, and that nothing else writes them. -/

namespace Sys2Proof.Machine

/-! ### F[i] inside a frame (R13) -/

/-- Inside a frame `byteAt` is the frame's own byte. -/
theorem getElem?_eq_some_byteAt {f : List Byte} {i : Nat} (h : i < f.length) : f[i]? = some (byteAt f i) := by
  simp [byteAt, h]

theorem byteAt_eq_iff {f : List Byte} {i : Nat} (h : i < f.length) (b : Byte) : byteAt f i = b ↔ f[i]? = some b := by
  simp [getElem?_eq_some_byteAt h]

@[simp] theorem lo_join16 (a b : Byte) : lo (join16 a b) = b := BitVec.extractLsb'_append_eq_right

@[simp] theorem hi_join16 (a b : Byte) : hi (join16 a b) = a := BitVec.extractLsb'_append_eq_left

/-! ### The checks (R121, R122) -/

/-- The source's checks read bytes of the frame only, since each stands behind N ≥ 6. -/
theorem sourceCheck_length (f : List Byte) :
    sourceCheck f f.length =
      if f.length < 6 then .short
      else if f[0]? ≠ some 0x01#8 then .badStx
      else if f[f.length - 1]? ≠ some 0x02#8 then .badEtx
      else if f[3]? ≠ some 0x04#8 then .badClass
      else if f[5]? ≠ some 0x55#8 then .badStatus
      else .ok := by
  unfold sourceCheck
  by_cases hshort : f.length < 6
  · simp only [if_pos hshort]
  · have h0 : 0 < f.length := by omega
    have hz : f.length - 1 < f.length := by omega
    have h3 : 3 < f.length := by omega
    have h5 : 5 < f.length := by omega
    simp only [ne_eq, byteAt_eq_iff h0, byteAt_eq_iff hz, byteAt_eq_iff h3, byteAt_eq_iff h5, stx, etx, classByte,
      okSentinel]

theorem isValid_iff_sourceCheck (f : List Byte) : isValid f = true ↔ sourceCheck f f.length = .ok := by
  simp [isValid]

theorem sourceCheck_eq_ok_iff (f : List Byte) :
    sourceCheck f f.length = .ok ↔
      6 ≤ f.length ∧ f[0]? = some 0x01#8 ∧ f[f.length - 1]? = some 0x02#8 ∧ f[3]? = some 0x04#8 ∧
        f[5]? = some 0x55#8 := by
  simp [sourceCheck_length, ite_eq_iff]

theorem checkFrame_of_ovf (dscErr : Bool) (f : List Byte) (n : Nat) : checkFrame true dscErr f n = .rxOverflow := rfl

theorem checkFrame_of_dscErr (f : List Byte) (n : Nat) : checkFrame false true f n = .escError := rfl

theorem checkFrame_of_clean (f : List Byte) (n : Nat) : checkFrame false false f n = sourceCheck f n := rfl

theorem checkFrame_eq_ok_iff (ovf dscErr : Bool) (f : List Byte) (n : Nat) :
    checkFrame ovf dscErr f n = .ok ↔ sourceCheck f n = .ok ∧ ovf = false ∧ dscErr = false := by
  cases ovf <;> cases dscErr <;> simp [checkFrame]

/-- Settles O40: F[5] cannot be both the sentinel and, as the last of six bytes, ETX. -/
theorem validFramesMeetTheFiveChecks : Obligations.ValidFramesMeetTheFiveChecks := by
  intro f
  have hchecks := (isValid_iff_sourceCheck f).trans (sourceCheck_eq_ok_iff f)
  refine ⟨hchecks, fun hvalid => ?_⟩
  obtain ⟨hlen, -, hetx, -, hok⟩ := hchecks.mp hvalid
  have hne : f.length ≠ 6 := by
    intro h6
    rw [h6, hok] at hetx
    exact absurd hetx (by decide)
  omega

/-! ### What a completion leaves (R120) -/

/-- The last byte of a frame leaves the results of the stored frame. -/
theorem receiveByte_last_res (d : Byte) (s : State) :
    (receiveByte d true s).res =
      completedResult s.params (receiveByte d true s).rx.ovf (receiveByte d true s).rx.dscErr
        (rxFrame (receiveByte d true s)) (rxFrame (receiveByte d true s)).length := by
  rw [length_rxFrame]; rfl

/-- A completion reads no result register and writes all of them. -/
theorem receiveByte_last_withRes (d : Byte) (s : State) (q : Result) :
    receiveByte d true (s.withRes q) = receiveByte d true s := rfl

/-- DONE and the two header fields are the same for every frame, valid or not. -/
theorem completedResult_header (p : Params) (ovf dscErr : Bool) (f : List Byte) (n : Nat) :
    (completedResult p ovf dscErr f n).done = true ∧
      (completedResult p ovf dscErr f n).cmd = (clearedResult f n).cmd ∧
      (completedResult p ovf dscErr f n).lenf = (clearedResult f n).lenf := by
  by_cases h : checkFrame ovf dscErr f n = .ok
  · obtain ⟨hdone, -, hcmd, hlenf⟩ := decodeFrame_keeps p f n { clearedResult f n with valid := true }
    rw [completedResult_of_ok p h]
    exact ⟨hdone, hcmd, hlenf⟩
  · rw [completedResult_of_ne p h]
    exact ⟨rfl, rfl, rfl⟩

section
variable (p : Params) {ovf dscErr : Bool} {f : List Byte} {n : Nat}

/-- A frame that is not valid leaves the failed check and cleared fields. -/
theorem completedResult_of_invalid (h : (completedResult p ovf dscErr f n).valid = false) :
    completedResult p ovf dscErr f n = { clearedResult f n with reason := checkFrame ovf dscErr f n } :=
  completedResult_of_ne p fun hok => by simp [(completedResult_valid p ovf dscErr f n).mpr hok] at h

theorem completedResult_reason_of_fails {r : Reason} (hne : r ≠ .ok) (h : checkFrame ovf dscErr f n = r) :
    (completedResult p ovf dscErr f n).reason = r := by
  subst h
  rw [completedResult_of_ne p hne]

/-- A frame that passes every check is valid; only the decoder can then leave another REASON than OK (R132). -/
theorem completedResult_of_passes (h : checkFrame ovf dscErr f n = .ok) :
    (completedResult p ovf dscErr f n).valid = true ∧
      ((completedResult p ovf dscErr f n).reason = .ok ∨ (completedResult p ovf dscErr f n).reason = .payloadShort) := by
  obtain ⟨-, hreason, -, -⟩ := completedResult_inv p ovf dscErr f n
  have hvalid := (completedResult_valid p ovf dscErr f n).mpr h
  exact ⟨hvalid, (hreason.mp hvalid).2⟩

theorem completedResult_kind_of_invalid (h : (completedResult p ovf dscErr f n).valid = false) :
    (completedResult p ovf dscErr f n).kind = .none := by
  rw [completedResult_of_invalid p h]; rfl

end

/-! ### The header fields (R124) -/

theorem clearedResult_lenf_of_le {f : List Byte} (h : 3 ≤ f.length) :
    f[1]? = some (lo (clearedResult f f.length).lenf) ∧ f[2]? = some (hi (clearedResult f f.length).lenf) := by
  have h1 := getElem?_eq_some_byteAt (f := f) (i := 1) (by omega)
  have h2 := getElem?_eq_some_byteAt (f := f) (i := 2) (by omega)
  simp [clearedResult, h, h1, h2]

theorem clearedResult_lenf_of_lt (f : List Byte) {n : Nat} (h : n < 3) : (clearedResult f n).lenf = 0#16 :=
  if_neg (Nat.not_le.mpr h)

theorem clearedResult_cmd_of_le {f : List Byte} (h : 5 ≤ f.length) :
    f[4]? = some (clearedResult f f.length).cmd := by
  have h4 := getElem?_eq_some_byteAt (f := f) (i := 4) (by omega)
  simp [clearedResult, h, h4]

theorem clearedResult_cmd_of_lt (f : List Byte) {n : Nat} (h : n < 5) : (clearedResult f n).cmd = 0#8 :=
  if_neg (Nat.not_le.mpr h)

/-! ### The statements about completion -/

/-- Settles O41: each reason is the value of the checks under the hypotheses that lead to it. -/
theorem reasonIsTheFirstFailedCheck : Obligations.ReasonIsTheFirstFailedCheck := by
  intro d s
  refine ⟨_, _, exec_rxByte d true s, rfl, ?_⟩
  rw [receiveByte_last_res]
  generalize (receiveByte d true s).rx.ovf = ovf, (receiveByte d true s).rx.dscErr = dscErr,
    rxFrame (receiveByte d true s) = f
  refine ⟨?_, ?_, ?_, completedResult_kind_of_invalid s.params⟩
  · rintro rfl
    exact completedResult_reason_of_fails _ nofun (checkFrame_of_ovf ..)
  · rintro rfl rfl
    exact completedResult_reason_of_fails _ nofun (checkFrame_of_dscErr ..)
  · rintro rfl rfl
    have hfails {r : Reason} (hne : r ≠ .ok) (h : sourceCheck f f.length = r) :=
      completedResult_reason_of_fails s.params hne ((checkFrame_of_clean f f.length).trans h)
    refine ⟨fun hlen => hfails nofun ?_, fun hlen h0 => hfails nofun ?_, fun hlen h0 hz => hfails nofun ?_,
      fun hlen h0 hz h3 => hfails nofun ?_, fun hlen h0 hz h3 h5 => hfails nofun ?_, fun hlen h0 hz h3 h5 => ?_⟩
    case refine_6 =>
      exact completedResult_of_passes _ ((sourceCheck_eq_ok_iff f).mpr ⟨hlen, h0, hz, h3, h5⟩)
    all_goals simp [sourceCheck_length, *]

/-- Settles O42: Complete() writes the results as a function of the parameters and the receive path; O51 says that no
other operation writes them. -/
theorem completionWritesEveryResult : Obligations.CompletionWritesEveryResult := by
  refine ⟨fun d s => ?_, fun i s t h hne => ?_⟩
  · have hres := receiveByte_last_res d s
    refine ⟨_, _, exec_rxByte d true s, rfl, hres, ?_⟩
    rw [hres]
    generalize (receiveByte d true s).rx.ovf = ovf, (receiveByte d true s).rx.dscErr = dscErr,
      rxFrame (receiveByte d true s) = f
    obtain ⟨hdone, hcmd, hlenf⟩ := completedResult_header s.params ovf dscErr f f.length
    have hvalid := completedResult_valid s.params ovf dscErr f f.length
    rw [hcmd, hlenf]
    refine ⟨fun hinv => ?_, fun hv => completedResult_of_ok _ (hvalid.mp hv),
      fun q => congrArg Host.Outcome.next (receiveByte_last_withRes d s q), receiveByte_err s d true, hdone, ?_,
      clearedResult_lenf_of_le, clearedResult_lenf_of_lt f, clearedResult_cmd_of_le, clearedResult_cmd_of_lt f,
      fun hinv => ?_⟩
    · rw [completedResult_of_invalid _ hinv]
    · rw [hvalid, checkFrame_eq_ok_iff, isValid_iff_sourceCheck]
    · rw [completedResult_of_invalid _ hinv]
      exact ⟨rfl, rfl, rfl, rfl, rfl, rfl, rfl, rfl⟩
  · by_contra hother
    obtain ⟨-, -, -, -, -, -, -, -, -, -, -, -, -, -, -, -, hkeeps, -⟩ := eachElementHasItsWriters i s t h
    exact hne (hkeeps fun d hi => hother ⟨d, hi⟩)

end Sys2Proof.Machine

/-! The payload decoder (45_decoder.md R129–R139): which arm a command byte selects, what each arm leaves on either side of
its length bound, the raw slice read back from RXBUF, and the result registers as the source's decode. -/

namespace Sys2Proof.Machine

/-! ### The arms (R131–R137) -/

section
variable {p : Params} {f : List Byte} (n : Nat) (r : Result)

theorem decodeFrame_of_voltage (hv : byteAt f 4 = p.voltageRead) :
    decodeFrame p f n r = decodeLevel f n .voltage r := if_pos hv

theorem decodeFrame_of_lightlevel (hv : byteAt f 4 ≠ p.voltageRead) (hl : byteAt f 4 = p.lightlevelRead) :
    decodeFrame p f n r = decodeLevel f n .lightlevel r := (if_neg hv).trans (if_pos hl)

theorem decodeFrame_of_alarm (hv : byteAt f 4 ≠ p.voltageRead) (hl : byteAt f 4 ≠ p.lightlevelRead)
    (ha : byteAt f 4 = p.alarmRead) : decodeFrame p f n r = decodeAlarm f n r :=
  (if_neg hv).trans ((if_neg hl).trans (if_pos ha))

theorem decodeFrame_of_other (hv : byteAt f 4 ≠ p.voltageRead) (hl : byteAt f 4 ≠ p.lightlevelRead)
    (ha : byteAt f 4 ≠ p.alarmRead) :
    decodeFrame p f n r = decodeRaw n (if byteAt f 4 = p.colorRead then .colorRaw else .raw) r := by
  refine (if_neg hv).trans ((if_neg hl).trans ((if_neg ha).trans ?_))
  split <;> rfl

end

section
variable (f : List Byte) {n : Nat} (r : Result)

theorem decodeLevel_of_lt (k : Kind) (h : n < 8) : decodeLevel f n k r = { r with reason := .payloadShort } := if_pos h

theorem decodeLevel_of_le (k : Kind) (h : 8 ≤ n) :
    decodeLevel f n k r = { r with kind := k, level := byteAt f 6 } := if_neg (Nat.not_lt.mpr h)

theorem decodeAlarm_of_lt (h : n < 11) : decodeAlarm f n r = { r with reason := .payloadShort } := if_pos h

theorem decodeAlarm_of_le (h : 11 ≤ n) :
    decodeAlarm f n r =
      { r with
        kind := .alarm, hour := byteAt f 6, minute := byteAt f 7, scene := byteAt f 8,
        enabled := byteAt f 9 != 0x00#8 } := if_neg (Nat.not_lt.mpr h)

end

/-! ### What the decoder starts from on a valid frame (R120) -/

/-- The result registers of a valid frame as Complete() hands them to the decoder: header parsed, VALID set, nothing
decoded. -/
def validResult (f : List Byte) : Result := { clearedResult f f.length with valid := true }

/-- A frame that completes as valid leaves what the decoder makes of it, and reaches past F[5] (R126). -/
theorem receiveByte_last_res_of_valid {d : Byte} {s : State} (h : (receiveByte d true s).res.valid = true) :
    (receiveByte d true s).res =
        decodeFrame s.params (rxFrame (receiveByte d true s)) (rxFrame (receiveByte d true s)).length
          (validResult (rxFrame (receiveByte d true s))) ∧
      7 ≤ (rxFrame (receiveByte d true s)).length := by
  have hcompleted := receiveByte_last_res d s
  rw [hcompleted, completedResult_valid] at h
  obtain ⟨hsource, -, -⟩ := (checkFrame_eq_ok_iff ..).mp h
  exact ⟨hcompleted.trans (completedResult_of_ok _ h),
    (validFramesMeetTheFiveChecks _).2 ((isValid_iff_sourceCheck _).mpr hsource)⟩

/-! ### Level and alarm replies -/

/-- Settles O43: both level commands select `decodeLevel`, which reads F[6] exactly when it lies before the ETX. -/
theorem levelRepliesDecode : Obligations.LevelRepliesDecode := by
  intro d s
  refine ⟨_, _, exec_rxByte d true s, rfl, fun hvalid => ?_⟩
  obtain ⟨hres, hlen⟩ := receiveByte_last_res_of_valid hvalid
  rw [hres]
  generalize rxFrame (receiveByte d true s) = f at hlen ⊢
  intro k hk
  have hcmd := byteAt_eq_iff (f := f) (i := 4) (by omega)
  have harm : decodeFrame s.params f f.length (validResult f) = decodeLevel f f.length k (validResult f) := by
    obtain ⟨hv, rfl⟩ | ⟨hl, hne, rfl⟩ := hk
    · exact decodeFrame_of_voltage _ _ ((hcmd _).mpr hv)
    · have hl := (hcmd _).mpr hl
      exact decodeFrame_of_lightlevel _ _ (hl.trans_ne hne) hl
  rw [harm]
  obtain hshort | hlong := Nat.lt_or_ge f.length 8
  · rw [decodeLevel_of_lt _ _ _ hshort]
    exact ⟨fun h => absurd h (Nat.not_le.mpr hshort), fun _ => ⟨rfl, rfl, rfl⟩, rfl, rfl, rfl, rfl, rfl, rfl⟩
  · rw [decodeLevel_of_le _ _ _ hlong]
    exact ⟨fun _ => ⟨_, getElem?_eq_some_byteAt (by omega), rfl, rfl, rfl⟩,
      fun h => absurd h (Nat.not_lt.mpr hlong), rfl, rfl, rfl, rfl, rfl, rfl⟩

/-- Settles O44: the alarm command selects `decodeAlarm`, which reads F[6..9] exactly when they lie before the ETX. -/
theorem alarmRepliesDecode : Obligations.AlarmRepliesDecode := by
  intro d s
  refine ⟨_, _, exec_rxByte d true s, rfl, fun hvalid => ?_⟩
  obtain ⟨hres, hlen⟩ := receiveByte_last_res_of_valid hvalid
  rw [hres]
  generalize rxFrame (receiveByte d true s) = f at hlen ⊢
  intro ha hnv hnl
  have ha : byteAt f 4 = s.params.alarmRead := (byteAt_eq_iff (by omega) _).mpr ha
  rw [decodeFrame_of_alarm _ _ (ha.trans_ne hnv) (ha.trans_ne hnl) ha]
  obtain hshort | hlong := Nat.lt_or_ge f.length 11
  · rw [decodeAlarm_of_lt _ _ hshort]
    exact ⟨fun h => absurd h (Nat.not_le.mpr hshort), fun _ => ⟨rfl, rfl, rfl, rfl, rfl, rfl⟩, rfl, rfl, rfl⟩
  · rw [decodeAlarm_of_le _ _ hlong]
    have hread {i : Nat} (hi : i < 11) : f[i]? = some (byteAt f i) := getElem?_eq_some_byteAt (hi.trans_le hlong)
    have henabled : (byteAt f 9 != 0x00#8) = true ↔ f[9]? ≠ some 0x00#8 :=
      bne_iff_ne.trans (not_congr (byteAt_eq_iff (by omega) _))
    exact ⟨fun _ => ⟨rfl, rfl, hread (by decide), hread (by decide), hread (by decide), henabled⟩,
      fun h => absurd h (Nat.not_lt.mpr hlong), rfl, rfl, rfl⟩

/-! ### Raw replies -/

/-- RES_RAW_LEN does not wrap: RX_LEN is a 16-bit count. -/
theorem toNat_rawLen (t : State) :
    (BitVec.ofNat 16 ((rxFrame t).length - 7)).toNat = (rxFrame t).length - 7 := by
  have hlt := t.rx.len.isLt
  rw [← length_rxFrame] at hlt
  exact Nat.mod_eq_of_lt (by omega)

/-- Offset 6 and length N − 7 name F[6..N−2], all of the frame between the sentinel and the ETX. -/
theorem rawSlice_eq_slice {t : State} (hoff : t.res.rawOff = 6#16)
    (hlen : t.res.rawLen = BitVec.ofNat 16 ((rxFrame t).length - 7)) :
    rawSlice t = slice (rxFrame t) 6 ((rxFrame t).length - 2) := by
  refine List.ext_getElem ?_ fun i _ _ => ?_
  · have hslice : (rawSlice t).length = (rxFrame t).length - 7 := by
      rw [rawSlice, List.length_map, List.length_range, hlen, toNat_rawLen]
    rw [hslice, slice, List.length_take, List.length_drop]
    omega
  · simp [rawSlice, slice, rxFrame, hoff]

/-- Settles O45: every other command selects `decodeRaw`, which reads no payload byte and has no length bound. -/
theorem rawRepliesDecode : Obligations.RawRepliesDecode := by
  intro d s
  refine ⟨_, _, exec_rxByte d true s, rfl, fun hvalid hv hl ha => ?_⟩
  obtain ⟨hres, hlen⟩ := receiveByte_last_res_of_valid hvalid
  have hcmd := byteAt_eq_iff (f := rxFrame (receiveByte d true s)) (i := 4) (by omega)
  rw [decodeFrame_of_other _ _ (mt (hcmd _).mp hv) (mt (hcmd _).mp hl) (mt (hcmd _).mp ha)] at hres
  simp only [hcmd] at hres
  rw [rawSlice_eq_slice (by rw [hres]; rfl) (by rw [hres]; rfl), hres]
  exact ⟨rfl, rfl, rfl, toNat_rawLen _, rfl, rfl, rfl, rfl, rfl, rfl⟩

/-! ### The result registers hold the source's decode (R138, R139) -/

/-- KIND = NONE exactly when the registers hold no result. -/
theorem decodedResult_eq_none_iff (t : State) : decodedResult t = none ↔ t.res.kind = .none := by
  unfold decodedResult
  cases t.res.kind <;> simp

/-- Where the decoder wrote the results of a frame, they are the source's result of that frame, arm by arm. -/
theorem decodedResult_of_decodeFrame {p : Params} {t : State}
    (h : t.res = decodeFrame p (rxFrame t) (rxFrame t).length (validResult (rxFrame t))) :
    decodedResult t = decodePayload p (rxFrame t) := by
  have hraw {k : Kind} (hk : t.res = decodeRaw (rxFrame t).length k (validResult (rxFrame t))) :
      rawSlice t = slice (rxFrame t) 6 ((rxFrame t).length - 2) :=
    rawSlice_eq_slice (by rw [hk]; rfl) (by rw [hk]; rfl)
  unfold decodePayload decodedResult
  dsimp only
  split_ifs with hv hn hl hn ha hn hc
  · rw [h, decodeFrame_of_voltage _ _ hv, decodeLevel_of_lt _ _ _ hn]; rfl
  · rw [h, decodeFrame_of_voltage _ _ hv, decodeLevel_of_le _ _ _ (Nat.not_lt.mp hn)]
  · rw [h, decodeFrame_of_lightlevel _ _ hv hl, decodeLevel_of_lt _ _ _ hn]; rfl
  · rw [h, decodeFrame_of_lightlevel _ _ hv hl, decodeLevel_of_le _ _ _ (Nat.not_lt.mp hn)]
  · rw [h, decodeFrame_of_alarm _ _ hv hl ha, decodeAlarm_of_lt _ _ hn]; rfl
  · rw [h, decodeFrame_of_alarm _ _ hv hl ha, decodeAlarm_of_le _ _ (Nat.not_lt.mp hn)]
  · rw [decodeFrame_of_other _ _ hv hl ha, if_pos hc] at h
    rw [hraw h, h]; rfl
  · rw [decodeFrame_of_other _ _ hv hl ha, if_neg hc] at h
    rw [hraw h, h]; rfl

/-- A completion without overflow leaves decode of the stored frame, or no result when an escape was ill-formed. -/
theorem decodedResult_complete {s : State} (hovf : s.rx.ovf = false) :
    decodedResult (complete s) = if s.rx.dscErr = true then none else decode s.params (rxFrame s) := by
  have hres : (complete s).res =
      completedResult s.params false s.rx.dscErr (rxFrame s) (rxFrame s).length := by
    rw [length_rxFrame, ← hovf]; rfl
  have hnone (hfails : checkFrame false s.rx.dscErr (rxFrame s) (rxFrame s).length ≠ .ok) :
      decodedResult (complete s) = none := by
    rw [decodedResult_eq_none_iff, hres, completedResult_of_ne _ hfails]; rfl
  cases herr : s.rx.dscErr with
  | true =>
    rw [herr, checkFrame_of_dscErr] at hnone
    exact hnone nofun
  | false =>
    rw [herr, checkFrame_of_clean, Ne, ← isValid_iff_sourceCheck] at hnone
    rw [if_neg nofun, decode]
    split
    · next hvalid =>
      rw [herr] at hres
      exact decodedResult_of_decodeFrame (hres.trans (completedResult_of_ok _ ((isValid_iff_sourceCheck _).mp hvalid)))
    · next hinvalid => exact hnone hinvalid

/-- Settles O46: the completed frame is rxframe's list (O37), which in RX_MODE 0 is the received bytes themselves. -/
theorem rxFrameRefinesDecode : Obligations.RxFrameRefinesDecode := by
  intro r s hr hb hfits
  obtain ⟨t, ht, hframe, herr, -, hovf, -⟩ := rxFrameStoresDescapedFrame r s hr hb hfits
  have hcomplete := Host.Outcome.next.inj (ht.symm.trans (execAll_pseudoRxFrame hr hb))
  have hdecode : decodedResult t = if (rxframeOf r s.unstuffEn).2 = true then none
      else decode s.params (rxframeOf r s.unstuffEn).1 := by
    rw [← herr, ← hframe]
    subst hcomplete
    exact decodedResult_complete hovf
  refine ⟨t, ht, hdecode, fun hraw => ?_⟩
  rw [← decodedResult_eq_none_iff, hdecode, hraw]; rfl

end Sys2Proof.Machine

/-! NOP and CFG_WR (46_control.md R140, R141): CFG_WR's words, and the mode of the frame begun after it. -/

namespace Sys2Proof.Machine

/-- Settles O47. The word comes from the round trip of decoder and encoder. -/
theorem nopChangesNothing : Obligations.NopChangesNothing :=
  ⟨fun _ => decodeWord_eq_ok_iff_eq_encode, exec_nop⟩

/-- The operand is bit D[0] of CFG_WR's word. -/
theorem encode_cfgWr (b : Bool) : encode (.cfgWr b) = if b = true then 0x9001#16 else 0x9000#16 := by
  cases b <;> rfl

/-- CFG_WR leaves the receive path idle, and byte 0 latches UNSTUFF_EN (O35). -/
theorem execAll_cfgWr_rxByte_mode (b : Bool) {s : State} (hb : s.rx.body = false) (d : Byte) (l : Bool) :
    ∃ t, execAll [.cfgWr b, .rxByte d l] s = .next t ∧ t.rx.mode = b := by
  obtain ⟨hlatch, -, -⟩ := rxModeIsLatchedAtByteZero
  obtain ⟨t, hbyte, hmode⟩ := hlatch d l (s.withUnstuffEn b) hb
  exact ⟨t, (execAll_cons_of_next (exec_cfgWr b s)).trans (execAll_cons_of_next hbyte), hmode⟩

/-- Settles O48. The words come from the round trip of decoder and encoder. -/
theorem cfgWrSelectsReceiveBehaviour : Obligations.CfgWrSelectsReceiveBehaviour := fun b s =>
  ⟨fun _ => encode_cfgWr b ▸ decodeWord_eq_ok_iff_eq_encode, execAll_cfgWr_rxByte_mode b, exec_cfgWr b s⟩

end Sys2Proof.Machine

/-! What a word does to the whole machine (60_exceptions.md R144, R145, R150; 70_reset_and_hazards.md R160, R165, R166):
every word has a next state, an operation sets the one flag whose cause it is or none, a frame on the wire is not
interrupted, and what holds until the next completion. -/

namespace Sys2Proof.Machine

/-! ### The acceptance of a word (R144) -/

theorem exists_exec_eq_next (i : Instr) (s : State) : ∃ t, exec i s = .next t := by
  cases i <;> exact ⟨_, rfl⟩

theorem exec_inbox {i : Instr} {s t : State} (h : exec i s = .next t) : t.inbox = s.inbox :=
  have ⟨_, hinbox, _⟩ := eachElementHasItsWriters i s t h
  hinbox

theorem step_of_undecodable {s : State} {w : Word} {rest : List HostEvent} {r : DecodeReject}
    (hin : s.inbox = .op w :: rest) (hdec : decodeWord w = .error r) :
    step s = .next (acceptIllegal (s.withInbox rest)) := by
  simp [step, nextEvent, hin, hdec]

/-- Settles O8: a legal word's operation has a next state, an illegal word has one, and neither touches the inbox. -/
theorem everyWordAnswersNext : Obligations.EveryWordAnswersNext := by
  intro s w rest hin
  cases hdec : decodeWord w with
  | ok i =>
    obtain ⟨t, hexec⟩ := exists_exec_eq_next i (s.withInbox rest)
    exact ⟨t, (stepRunsDecodedWord s w rest i hin hdec).trans hexec, exec_inbox hexec⟩
  | error r => exact ⟨_, step_of_undecodable hin hdec, rfl⟩

/-! ### The flag a word sets (R145, R150) -/

/-- The flag whose cause a word is in a state, by what the word decodes to: at most one (R150). -/
def errCause (s : State) : Except DecodeReject Instr → Option ErrFlag
  | .error _ => some .illegal
  | .ok (.txBegin _) => if s.tx.active then some .txSeq else none
  | .ok (.txData _) =>
    if !s.tx.active then some .txSeq else if s.params.maxPayload ≤ s.tx.plen.toNat then some .txOvf else none
  | .ok .txEnd => if !s.tx.active then some .txSeq else if s.escBody then some .escBusy else none
  | .ok _ => none

/-- Set the flag of a cause, if there is one. -/
@[simp] def ErrFlags.setCause (e : ErrFlags) : Option ErrFlag → ErrFlags
  | none => e
  | some x => e.set x

theorem get_setCause_iff (e : ErrFlags) (c : Option ErrFlag) (x : ErrFlag) :
    (e.setCause c).get x = true ↔ e.get x = true ∨ c = some x := by
  cases c with
  | none => simp
  | some y =>
    by_cases hxy : x = y
    · simp [hxy]
    · simp [errFlags_set_get_of_ne e y x hxy, Ne.symm hxy]

/-- An operation sets the flag whose cause it is, and no other. -/
theorem exec_err {i : Instr} {s t : State} (h : exec i s = .next t) : t.err = s.err.setCause (errCause s (.ok i)) := by
  cases i with
  | txBegin c =>
    cases h
    rw [beginFrame_err]
    cases ha : s.tx.active <;> simp [errCause, ha]
  | txData p =>
    cases h
    obtain ⟨ha, heq⟩ | ⟨ha, hroom, heq⟩ | ⟨ha, hfull, heq⟩ := appendPayload_cases s p <;> rw [heq]
    · simp [errCause, ha]
    · simp [errCause, ha, Nat.not_le.mpr hroom]
    · simp [errCause, ha, hfull]
  | txEnd =>
    cases h
    obtain ⟨ha, heq⟩ | ⟨ha, he, heq⟩ | ⟨ha, he, -, heq⟩ | ⟨ha, he, -, heq⟩ := endFrame_cases s <;> rw [heq]
    · simp [errCause, ha]
    · simp [errCause, ha, he]
    · simp [errCause, ha, he]
    · simp [errCause, ha, he]
  | _ => cases h; simp [errCause]

/-- A word sets the flag whose cause it is, and no other. -/
theorem step_err_of_op {s t : State} {w : Word} {rest : List HostEvent} (hin : s.inbox = .op w :: rest)
    (h : step s = .next t) : t.err = s.err.setCause (errCause s (decodeWord w)) := by
  cases hdec : decodeWord w with
  | ok i => exact exec_err (s := s.withInbox rest) ((stepRunsDecodedWord s w rest i hin hdec).symm.trans h)
  | error r => cases (step_of_undecodable hin hdec).symm.trans h; rfl

/-- R145's table: when a word is a cause of a flag, by the state and what the word decodes to. -/
def ErrFlag.CausedBy (s : State) (d : Except DecodeReject Instr) : ErrFlag → Prop
  | .illegal => ∃ r, d = .error r
  | .txSeq =>
    (s.tx.active = false ∧ ∃ p, d = .ok (.txData p)) ∨ (s.tx.active = false ∧ d = .ok .txEnd) ∨
      (s.tx.active = true ∧ ∃ c, d = .ok (.txBegin c))
  | .txOvf => s.tx.active = true ∧ s.params.maxPayload ≤ s.tx.plen.toNat ∧ ∃ p, d = .ok (.txData p)
  | .escBusy => s.tx.active = true ∧ s.escBody = true ∧ d = .ok .txEnd

/-- The flag a word sets is the one R145's table has it for. -/
theorem errCause_eq_some_iff (s : State) (d : Except DecodeReject Instr) (x : ErrFlag) :
    errCause s d = some x ↔ x.CausedBy s d := by
  obtain r | i := d
  · cases x <;> simp [errCause, ErrFlag.CausedBy]
  · cases i with
    | txBegin c => cases x <;> simp [errCause, ErrFlag.CausedBy]
    | txData p => cases ha : s.tx.active <;> cases x <;> simp [errCause, ErrFlag.CausedBy, ha]
    | txEnd => cases ha : s.tx.active <;> cases x <;> simp [errCause, ErrFlag.CausedBy, ha]
    | _ => cases x <;> simp [errCause, ErrFlag.CausedBy]

/-- No step but a reset clears a flag. -/
theorem step_keeps_err {s t : State} {x : ErrFlag} (h : step s = .next t) (hrst : s.inbox.head? ≠ some .rst)
    (hx : s.err.get x = true) : t.err.get x = true := by
  obtain ⟨-, rfl⟩ | ⟨w, rest, i, hin, -, -⟩ | ⟨w, rest, r, hin, -, -⟩ | ⟨rest, hin, -⟩ | ⟨rest, -, rfl⟩ := step_cases h
  · exact hx
  · exact step_err_of_op hin h ▸ (get_setCause_iff ..).mpr (.inl hx)
  · exact step_err_of_op hin h ▸ (get_setCause_iff ..).mpr (.inl hx)
  · exact absurd (congrArg List.head? hin) hrst
  · exact hx

/-- Settles O49: after a word a flag is set iff it was or the word is its cause, and R145's table says which word is. -/
theorem errFlagsRecordTheirCauses : Obligations.ErrFlagsRecordTheirCauses := by
  refine ⟨fun s t w rest hin h => ?_, fun s t x => step_keeps_err⟩
  have hflag : ∀ x, t.err.get x = true ↔ s.err.get x = true ∨ x.CausedBy s (decodeWord w) := fun x => by
    rw [step_err_of_op hin h, get_setCause_iff, errCause_eq_some_iff]
  exact ⟨hflag .illegal, hflag .txSeq, hflag .txOvf, hflag .escBusy⟩

/-- Settles O50: a flag newly set names the word's cause, and a word has one cause at most. -/
theorem oneWordSetsAtMostOneFlag : Obligations.OneWordSetsAtMostOneFlag := by
  intro s t w rest hin h
  have hnew : ∀ x, s.err.get x = false → t.err.get x = true → errCause s (decodeWord w) = some x := fun x hs ht =>
    ((get_setCause_iff ..).mp (step_err_of_op hin h ▸ ht)).resolve_left (Bool.eq_false_iff.mp hs)
  refine ⟨fun x y hxs hxt hys hyt => Option.some.inj ((hnew x hxs hxt).symm.trans (hnew y hys hyt)), fun hne => ?_⟩
  cases hdec : decodeWord w with
  | error r => exact .inl ⟨r, rfl⟩
  | ok i =>
    have hexec := (stepRunsDecodedWord s w rest i hin hdec).symm.trans h
    simpa using exec_err_changed hexec hne

/-! ### The transmit stream (R165) -/

/-- What an operation adds to the stream: nothing, with the escaper as it was; or pairs of which only the final one may
be marked last, with the escaper inside a frame iff it is not. -/
theorem exec_emits {i : Instr} {s t : State} (h : exec i s = .next t) :
    (t.txq = s.txq ∧ t.emitted = s.emitted ∧ t.escBody = s.escBody) ∨
    ∃ (f : List Byte) (p : TxPair),
      t.txq = s.txq ++ (f.map (fun b => ⟨b, false⟩) ++ [p]) ∧
      t.emitted = s.emitted ++ (f.map (fun b => ⟨b, false⟩) ++ [p]) ∧
      t.escBody = (!p.last) ∧ (i = .txEnd → s.escBody = false) := by
  cases i with
  | escByte d l =>
    cases h
    cases hs : s.escBody with
    | false => rw [escapeByte_of_idle d l hs]; exact .inr ⟨[], ⟨d, l⟩, rfl, rfl, rfl, nofun⟩
    | true =>
      cases l with
      | true => rw [escapeByte_of_last d hs]; exact .inr ⟨[], ⟨d, true⟩, rfl, rfl, rfl, nofun⟩
      | false =>
        rw [escapeByte_of_inner d hs]
        cases hd : isReserved d with
        | true =>
          rw [escBytes_of_reserved hd]
          exact .inr ⟨[esc], ⟨d + 3#8, false⟩, rfl, rfl, hs, nofun⟩
        | false =>
          rw [escBytes_of_not_reserved hd]
          exact .inr ⟨[], ⟨d, false⟩, rfl, rfl, hs, nofun⟩
  | txEnd =>
    cases h
    obtain ⟨-, heq⟩ | ⟨-, -, heq⟩ | ⟨-, -, -, heq⟩ | ⟨-, he, -, heq⟩ := endFrame_cases s <;> rw [heq]
    · exact .inl ⟨rfl, rfl, rfl⟩
    · exact .inl ⟨rfl, rfl, rfl⟩
    · exact .inl ⟨rfl, rfl, rfl⟩
    · rw [sendFrame, pairs_stuff_buildInnerFrame]
      exact .inr ⟨_, ⟨etx, true⟩, rfl, rfl, he, fun _ => he⟩
  | _ => cases h; exact .inl (by simp)

/-- Settles O53: pairs that end in one that may be marked last, and carry no other mark. -/
theorem transmitFramesAreNotInterleaved : Obligations.TransmitFramesAreNotInterleaved := by
  intro i s t h
  obtain ⟨htxq, hemitted, hbody⟩ | ⟨f, p, htxq, hemitted, hbody, hend⟩ := exec_emits h
  · exact ⟨[], by simp [htxq, hemitted, hbody]⟩
  · exact ⟨_, htxq, hemitted, by simp, by simp [hbody], by simp, fun hi _ => hend hi⟩

/-! ### What holds until the next completion (R166) -/

/-- Complete() alone writes the results. -/
theorem exec_res {i : Instr} {s t : State} (h : exec i s = .next t) (hi : ∀ d, i ≠ .rxByte d true) :
    t.res = s.res := by
  by_contra hne
  obtain ⟨-, hwriter⟩ := completionWritesEveryResult
  obtain ⟨d, hd⟩ := hwriter i s t h hne
  exact hi d hd

/-- RX_BYTE and RX_ABORT alone write the receive path. -/
theorem exec_rx {i : Instr} {s t : State} (h : exec i s = .next t)
    (hbyte : ∀ d l, i ≠ .rxByte d l) (habort : i ≠ .rxAbort) : t.rx = s.rx := by
  cases i with
  | rxByte d l => exact absurd rfl (hbyte d l)
  | rxAbort => exact absurd rfl habort
  | _ => cases h; simp

/-- Settles O54, by the cases of a step; reset is excluded, and no event but a word writes results or receive path. -/
theorem resultsHoldUntilNextCompletion : Obligations.ResultsHoldUntilNextCompletion := by
  intro s t h hrst
  obtain ⟨-, rfl⟩ | ⟨w, rest, i, hin, hdec, hexec⟩ | ⟨w, rest, r, -, -, rfl⟩ | ⟨rest, hin, -⟩ | ⟨rest, -, rfl⟩ :=
    step_cases h
  · exact ⟨fun _ => rfl, fun _ _ => rfl⟩
  · rw [hin, List.head?_cons]
    refine ⟨fun hword => exec_res (s := s.withInbox rest) hexec fun d hi => ?_, fun _ hword =>
      exec_rx (s := s.withInbox rest) hexec (fun d l hi => ?_) fun hi => ?_⟩
    · exact hword w d rfl (hi ▸ hdec)
    · exact (hword w d l rfl).1 (hi ▸ hdec)
    · exact (hword w 0#8 false rfl).2 (hi ▸ hdec)
  · exact ⟨fun _ => rfl, fun _ _ => rfl⟩
  · exact absurd (congrArg List.head? hin) hrst
  · exact ⟨fun _ => rfl, fun _ _ => rfl⟩

/-! ### Reset (R23, R160) -/

theorem step_of_rst {s : State} {rest : List HostEvent} (hin : s.inbox = .rst :: rest) :
    step s = .next (assertReset (s.withInbox rest)) := by
  simp [step, nextEvent, hin]

/-- Settles O11, element by element; no index of the emptied buffers has a byte of its own. -/
theorem rstSetsEveryElement : Obligations.RstSetsEveryElement := by
  intro s rest hin
  refine ⟨_, step_of_rst hin, ?_⟩
  simp [assertReset, State.clean, ErrFlags.reset, TxPath.reset, RxPath.reset, Result.reset, txByte, rxByte]

/-- Settles O12: the register map has 32 indices, and no open parameter is read at any. -/
theorem resetReadsZeroEverywhere : Obligations.ResetReadsZeroEverywhere :=
  ⟨by decide, rfl, rfl, rfl⟩

/-- Settles O57: State.reset is what a reset leaves of it, and a reset establishes the invariant. -/
theorem resetMeetsInvariant : Obligations.ResetMeetsInvariant := assertReset_inv State.reset

end Sys2Proof.Machine
